-- ==== Sys2Proof/Word.lean ====
section
/-! DEFINITION. Word.lean: the widths of FSLINK's data. A byte is 8 bits, unsigned
(00_scope.md R10). The stimulus word is 16 bits (30_encoding.md R90), the bus write record read as
one number is 24 bits (R87), the outbound command frame read as one number is 48 bits (R80). -/

namespace Sys2Proof

/-- One byte (00_scope.md R10). -/
abbrev Byte := BitVec 8

/-- A stimulus word: KIND in bits 15:8, OPERAND in bits 7:0 (30_encoding.md R90). -/
abbrev StimWord := BitVec 16

/-- A bus write record as one number: INDEX 23:16, LO 15:8, HI 7:0 (30_encoding.md R87). -/
abbrev RecWord := BitVec 24

/-- A command frame as one number, the first byte most significant (30_encoding.md R80). -/
abbrev FrameWord := BitVec 48

end Sys2Proof
end

