-- ==== Sys2Proof/Config.lean ====
section
/-! DEFINITION. Config.lean: what an implementation of FSLINK fixes. Table A of 00_scope.md R7 (the
source's own values) stands here as constants; Table B (the values the source leaves open) is the
record `Cfg`, plain data, so that every statement can range over all of them; `cfg0` is CFG0 of
92_eei_decisions.md D55. The two free values of the model (the draws of 00_scope.md R12, R13) are the
opaque constants at the end: no body, so nothing can be proved of their values. Of Table A,
CMD_FRAME_BYTES is the width of `FrameWord`, SNAPSHOT_BYTES the size of a snapshot, the mute-key frame
`muteCode`, the modes and task states their types; SYS_VOLUME_MAX (30) is a range no component checks,
and no rule may assume it (90_conflicts.md C3). -/

namespace Sys2Proof

/-! ### Table A: fixed by the source (00_scope.md R7) -/

/-- MAGIC0. -/
def magic0 : Byte := 0xFF
/-- MAGIC1, ASCII 'F'. -/
def magic1 : Byte := 0x46
/-- MAGIC2, ASCII 'S'. -/
def magic2 : Byte := 0x53
/-- CMD_LEN, the length byte of every frame FSLINK builds (30_encoding.md R81). -/
def cmdLen : Byte := 2
/-- STATUS_MAX_LEN. -/
def statusMaxLen : Nat := 4
/-- SYNC_GUARD_MS. -/
def syncGuardMs : Nat := 100
/-- REC_BYTES. -/
def recBytes : Nat := 3
/-- REG_FILE_SIZE. -/
def regFileSize : Nat := 12
/-- REG_INDEX_MAX. -/
def regIndexMax : Nat := 15
/-- REG_KEY_CMD, the one index the source fixes (41_register_bus.md R161). -/
def regKeyCmd : Fin 12 := 2
/-- VOLUME_SET_MAX. -/
def volumeSetMax : Nat := 32
/-- KEY_PRESSED_QUALIFIER, 0x80 in every configuration (30_encoding.md R93). -/
def keyPressedQualifier : Byte := 0x80

/-! ### The types of the configuration's fields -/

/-- `SystemMode` (10_state.md R42). -/
inductive Mode where
  | idle | standby | booting | bluetoothA2DP | spotifyConnect | factoryReset | networkConfig
deriving DecidableEq, Repr

/-- The three startup modes a BootRule may give (42_mode_fsm.md R230). -/
inductive BootTarget where
  | spotifyConnect | standby | networkConfig
deriving DecidableEq, Repr

/-- What a bus write stores into the register file (41_register_bus.md R192). -/
inductive RawStoreMode where
  | none | byte
deriving DecidableEq, Repr

/-- What the router does with a truncated record (41_register_bus.md R178). -/
inductive PartialRecordPolicy where
  | processRetained | drop
deriving DecidableEq, Repr

/-- A predicate on a status snapshot, as plain data: `wifiIs n` is `WifiNib(s[0]) = n`, `bits i m v`
is `s[i] &&& m = v`, and the three connectives. Every predicate on the four bytes has this form, so
the type loses no `Cfg` of 00_scope.md R8 (log entry 2). -/
inductive SnapPred where
  | wifiIs (n : BitVec 4)
  | bits (i : Fin 4) (mask value : Byte)
  | neg (p : SnapPred)
  | both (p q : SnapPred)
  | either (p q : SnapPred)
deriving DecidableEq, Repr

/-- A BootRule as a decision list over the snapshot: the first row whose predicate holds, else
`otherwise` (42_mode_fsm.md R230; log entry 2). -/
structure BootTable where
  rows : List (SnapPred × BootTarget)
  otherwise : BootTarget
deriving DecidableEq, Repr

/-- A (command, data) pair sent to the companion module (30_encoding.md R94). -/
structure CmdPair where
  cmd : Byte
  data : Byte
deriving DecidableEq, Repr

/-- The eleven keys of the router's lookup (30_encoding.md R93). -/
inductive Key where
  | mute | unmute | spotifyMode | btMode | volUp | volDown | playPause | next | prev
  | resetNetwork | factoryReset
deriving DecidableEq, Repr

/-- One row of KeyMap: the payload byte and the command byte it sends. The data byte is
`keyPressedQualifier` in every row (30_encoding.md R93). -/
structure KeyCode where
  payload : Byte
  cmd : Byte
deriving DecidableEq, Repr

/-- The ten rows of KeyMap that are open; the mute row is fixed (`muteCode`). -/
structure KeyTable where
  unmute : KeyCode
  spotifyMode : KeyCode
  btMode : KeyCode
  volUp : KeyCode
  volDown : KeyCode
  playPause : KeyCode
  next : KeyCode
  prev : KeyCode
  resetNetwork : KeyCode
  factoryReset : KeyCode
deriving DecidableEq, Repr

/-- KEY_CMD_MUTE: payload 0x01 sends command 0x03 (00_scope.md R7 Table A, 30_encoding.md R88, R93). -/
def muteCode : KeyCode := { payload := 0x01, cmd := 0x03 }

/-- Table B of 00_scope.md R7: every value the source leaves open. Fixed for a run. -/
structure Cfg where
  /-- RX_FIFO_DEPTH. -/
  rxFifoDepth : Nat
  /-- TICK_BITS. -/
  tickBits : Nat
  /-- STATUS_REQ_INTERVAL_MS. -/
  statusReqIntervalMs : Nat
  /-- MC_STATUS_REQ and MC_STATUS_REQ_DATA. -/
  mcStatusReq : CmdPair
  /-- MC_SET_VOLUME. -/
  mcSetVolume : Byte
  /-- KeyMap, less its fixed row. -/
  keys : KeyTable
  fcBt : CmdPair
  fcSpotify : CmdPair
  fcSwitchSpotify : CmdPair
  fcStandby : CmdPair
  fcFactoryReset : CmdPair
  fcUnmute : CmdPair
  fcVolUp : CmdPair
  fcVolDown : CmdPair
  regFwId : Fin 12
  regBootFlags : Fin 12
  regWifiBt : Fin 12
  regMode : Fin 12
  regSpotify : Fin 12
  regVolumeMute : Fin 12
  regError : Fin 12
  regAuxCtrl : Fin 12
  regAuxDiag : Fin 12
  regVolumeSet : Fin 12
  /-- FW_ID. -/
  fwId : Byte
  /-- BOOT_READY_BIT. -/
  bootReadyBit : Fin 8
  rawStoreMode : RawStoreMode
  partialRecordPolicy : PartialRecordPolicy
  /-- The lowest bit of each 4-bit sub-field in its byte (30_encoding.md R84; log entry 3). -/
  wifiNib : Fin 5
  btNib : Fin 5
  modeNib : Fin 5
  spotifyNib : Fin 5
  wifiConnected : SnapPred
  inWifiSetup : SnapPred
  /-- moduleModeMap: the first row of the nibble; a nibble with no row is "no mode". -/
  moduleModeMap : List (BitVec 4 × Mode)
  errWifiReconnBit : Fin 8
  errWebUpgradeBit : Fin 8
  errFactoryBit : Fin 8
  /-- BootRule where CONFIG_STANDBY is false. -/
  bootRule : BootTable
  /-- BootRule where CONFIG_STANDBY is true. -/
  bootRuleStandby : BootTable
  configStandby : Bool
  fsControlModeFromModule : Bool
  configDiagCounter : Bool
  blockMs : Nat
  debounceMs : Nat
  bootSettleMs : Nat
  spotifyGraceMs : Nat
  volEchoMs : Nat
  defaultVolume : BitVec 7
  defaultMode : Mode
  initVolume : BitVec 7
deriving DecidableEq, Repr

/-- KeyMap's row of a key (30_encoding.md R93). -/
def Cfg.keyCode (c : Cfg) : Key → KeyCode
  | .mute => muteCode
  | .unmute => c.keys.unmute
  | .spotifyMode => c.keys.spotifyMode
  | .btMode => c.keys.btMode
  | .volUp => c.keys.volUp
  | .volDown => c.keys.volDown
  | .playPause => c.keys.playPause
  | .next => c.keys.next
  | .prev => c.keys.prev
  | .resetNetwork => c.keys.resetNetwork
  | .factoryReset => c.keys.factoryReset

/-- The register-map constraint of 41_register_bus.md R161: the named registers stand at distinct
indices, none of them the key-command register's. (That they lie below REG_FILE_SIZE is their type.) -/
def Cfg.regsDistinct (c : Cfg) : Bool :=
  decide ([regKeyCmd, c.regFwId, c.regBootFlags, c.regWifiBt, c.regMode, c.regSpotify,
    c.regVolumeMute, c.regError, c.regAuxCtrl, c.regAuxDiag, c.regVolumeSet].Nodup)

/-- CFG0, the spec's own example configuration (92_eei_decisions.md D55; log entry 1). -/
def cfg0 : Cfg where
  rxFifoDepth := 64
  tickBits := 32
  statusReqIntervalMs := 1000
  mcStatusReq := ⟨0x01, 0x00⟩
  mcSetVolume := 0x02
  keys := {
    unmute := ⟨0x02, 0x04⟩
    spotifyMode := ⟨0x03, 0x05⟩
    btMode := ⟨0x04, 0x06⟩
    volUp := ⟨0x05, 0x07⟩
    volDown := ⟨0x06, 0x08⟩
    playPause := ⟨0x07, 0x09⟩
    next := ⟨0x08, 0x0A⟩
    prev := ⟨0x09, 0x0B⟩
    resetNetwork := ⟨0x0A, 0x0C⟩
    factoryReset := ⟨0x0B, 0x0D⟩ }
  fcBt := ⟨0x06, 0x80⟩
  fcSpotify := ⟨0x05, 0x80⟩
  fcSwitchSpotify := ⟨0x05, 0x80⟩
  fcStandby := ⟨0x0E, 0x80⟩
  fcFactoryReset := ⟨0x0D, 0x80⟩
  fcUnmute := ⟨0x04, 0x80⟩
  fcVolUp := ⟨0x07, 0x80⟩
  fcVolDown := ⟨0x08, 0x80⟩
  regFwId := 0
  regBootFlags := 1
  regWifiBt := 3
  regMode := 4
  regSpotify := 5
  regVolumeMute := 6
  regError := 7
  regAuxCtrl := 8
  regAuxDiag := 9
  regVolumeSet := 10
  fwId := 0x10
  bootReadyBit := 0
  rawStoreMode := .byte
  partialRecordPolicy := .processRetained
  wifiNib := 0
  btNib := 4
  modeNib := 0
  spotifyNib := 4
  wifiConnected := .wifiIs 1
  inWifiSetup := .wifiIs 2
  moduleModeMap := [(1, .bluetoothA2DP), (2, .spotifyConnect), (3, .networkConfig), (4, .standby)]
  errWifiReconnBit := 0
  errWebUpgradeBit := 1
  errFactoryBit := 2
  bootRule := ⟨[(.wifiIs 2, .networkConfig), (.wifiIs 1, .spotifyConnect)], .networkConfig⟩
  bootRuleStandby := ⟨[(.wifiIs 2, .networkConfig), (.wifiIs 1, .standby)], .standby⟩
  configStandby := false
  fsControlModeFromModule := true
  configDiagCounter := true
  blockMs := 2000
  debounceMs := 500
  bootSettleMs := 3000
  spotifyGraceMs := 10000
  volEchoMs := 500
  defaultVolume := 15
  defaultMode := .spotifyConnect
  initVolume := 15

/-! ### The draws (00_scope.md R12, R13) -/

/-- The n-th Bool draw: did the sink take the byte within the encoder's retry budget
(40_serial_link.md R124)? A free value: log entry 5. -/
opaque Config.drawAccept : Nat → Bool

/-- The n-th byte draw: what a read outside the register file, or outside a read transaction, returns
(20_memory.md R61, 41_register_bus.md R175). A free value: log entry 5. -/
opaque Config.drawByte : Nat → Byte

end Sys2Proof
end

