-- ==== Sys2Proof/Syntax.lean ====
section
/-! DEFINITION. Syntax.lean: one constructor of `Instr` per row of spec/opcode_table.json. A row is a
transaction at one of FSLINK's ports (10_state.md R49): a stimulus word (30_encoding.md R90), a script
line that stands for several stimuli (R92), a status frame on SER_IN (R82), a write record on BUS
(R87), or a command frame FSLINK puts on SER_OUT (R80, R94). `Wire` is a row's encoded form, and
`IpStim` a stimulus that may be taken at an interrupt point of a POLL (20_memory.md R71). -/

namespace Sys2Proof

/-- The instructions: the rows of spec/opcode_table.json, in the table's order. -/
inductive Instr where
  -- stimulus words (30_encoding.md R90)
  | tick (n : Byte)
  | tick100 (n : Byte)
  | rxb (b : Byte)
  | post (e : Byte)
  | scan (b : Bool)
  | txdrop (n : Byte)
  | baddrw
  | baddrr
  | bwr (b : Byte)
  | brd
  | bstop (p : Bool)
  | baf
  | berr
  | poll
  | reset
  /-- A word R90 does not assign (R97). -/
  | illegal (w : StimWord)
  -- POST, event by event (R96)
  | postNone
  | postVolUp
  | postVolDown
  | postModeToggle
  | postSetModeFromModule
  | postPower
  | postFactoryReset
  | postModuleVolumeSet
  | postOther (e : Byte)
  -- script lines (R92)
  | rxseq (bs : List Byte)
  | rxstatus (d0 d1 d2 d3 : Byte)
  | bwrite (i lo hi : Byte)
  | bsetidx (i : Byte)
  | bread (n : Nat)
  /-- At most 25,599 ms (R92). -/
  | wait (t : Fin 25600)
  | nop
  -- wire formats (R80, R82, R87)
  | cmdFrame (c d : Byte)
  | statusFrame (payload : List Byte)
  | writeRecord (i lo hi : Byte)
  -- write records by what the router does with them (41_register_bus.md R190 to R199)
  | recReject (i lo hi : Byte)
  | recRawStore (i lo hi : Byte)
  | recOob (i lo hi : Byte)
  | recKeyCmd (lo hi : Byte)
  | recAuxCtrl (lo hi : Byte)
  | recVolumeSet (lo hi : Byte)
  -- key records (30_encoding.md R93); the payload byte is the configuration's
  | keyMute (lo : Byte)
  | keyUnmute (lo : Byte)
  | keySpotifyMode (lo : Byte)
  | keyBtMode (lo : Byte)
  | keyVolUp (lo : Byte)
  | keyVolDown (lo : Byte)
  | keyPlayPause (lo : Byte)
  | keyNext (lo : Byte)
  | keyPrev (lo : Byte)
  | keyResetNetwork (lo : Byte)
  | keyFactoryReset (lo : Byte)
  -- module commands (R94); the code bytes are the configuration's
  | mcStatusReq
  | mcSetVolume (v : Byte)
  | fcUnmute
  | fcSpotify
  | fcSwitchSpotify
  | fcBt
  | fcVolUp
  | fcVolDown
  | fcFactoryReset
  | fcStandby
deriving DecidableEq, Repr

/-- An encoded transaction, tagged by the format column of the opcode table. -/
inductive Wire where
  /-- format stimulus16 -/
  | stim (w : StimWord)
  /-- format bus_record24 -/
  | record (w : RecWord)
  /-- format status_frame_var: its bytes, the first on the wire first -/
  | status (bs : List Byte)
  /-- format cmd_frame48 -/
  | cmd (w : FrameWord)
  /-- a width no format of the table has -/
  | unknown (nbits w : Nat)
deriving DecidableEq, Repr

/-- A stimulus the bus agent or the environment may run at an interrupt point: every one of R90 but
POLL and RESET (20_memory.md R71, 70_reset_and_hazards.md R332; log entry 7). -/
inductive IpStim where
  | tick (n : Byte)
  | tick100 (n : Byte)
  | rxb (b : Byte)
  | post (e : Byte)
  | scan (b : Bool)
  | txdrop (n : Byte)
  | baddrw
  | baddrr
  | bwr (b : Byte)
  | brd
  | bstop (p : Bool)
  | baf
  | berr
deriving DecidableEq, Repr

end Sys2Proof
end

