-- ==== Sys2Proof/WellFormed.lean ====
section
/-! DEFINITION. WellFormed.lean: which terms of `Instr` a row of the opcode table admits. A term that
fails a check is no row's transaction. -/

namespace Sys2Proof

/-- The stimulus words that 30_encoding.md R90 assigns: KIND k and OPERAND o, with the operand
conditions of its OPERAND column (R97). -/
def assignedKind (k o : Nat) : Bool :=
  if k = 0x01 ∨ k = 0x02 ∨ k = 0x10 ∨ k = 0x11 ∨ k = 0x13 ∨ k = 0x22 then true
  else if k = 0x12 ∨ k = 0x24 then decide (o ≤ 1)
  else if k = 0x20 ∨ k = 0x21 ∨ k = 0x23 ∨ k = 0x25 ∨ k = 0x26 ∨ k = 0x30 ∨ k = 0x3F then decide (o = 0)
  else false

/-- `assignedKind` of a word's two bytes. -/
def assignedWord (w : StimWord) : Bool := assignedKind (w.toNat / 256) (w.toNat % 256)

/-- The operand range of each row (30_encoding.md R82, R96, R97; the notes of the opcode table). -/
def Instr.wf : Instr → Bool
  | .tick _ => true
  | .tick100 _ => true
  | .rxb _ => true
  | .post _ => true
  | .scan _ => true
  | .txdrop _ => true
  | .baddrw => true
  | .baddrr => true
  | .bwr _ => true
  | .brd => true
  | .bstop _ => true
  | .baf => true
  | .berr => true
  | .poll => true
  | .reset => true
  | .illegal w => !assignedWord w
  | .postNone => true
  | .postVolUp => true
  | .postVolDown => true
  | .postModeToggle => true
  | .postSetModeFromModule => true
  | .postPower => true
  | .postFactoryReset => true
  | .postModuleVolumeSet => true
  | .postOther e => decide (8 ≤ e.toNat)
  | .rxseq _ => true
  | .rxstatus _ _ _ _ => true
  | .bwrite _ _ _ => true
  | .bsetidx _ => true
  | .bread _ => true
  | .wait _ => true
  | .nop => true
  | .cmdFrame _ _ => true
  | .statusFrame payload => decide (payload.length ≤ statusMaxLen)
  | .writeRecord _ _ _ => true
  | .recReject i _ _ => decide (regIndexMax < i.toNat)
  | .recRawStore i _ _ => decide (i.toNat < regFileSize)
  | .recOob i _ _ => decide (regFileSize ≤ i.toNat ∧ i.toNat ≤ regIndexMax)
  | .recKeyCmd _ _ => true
  | .recAuxCtrl _ _ => true
  | .recVolumeSet _ _ => true
  | .keyMute _ => true
  | .keyUnmute _ => true
  | .keySpotifyMode _ => true
  | .keyBtMode _ => true
  | .keyVolUp _ => true
  | .keyVolDown _ => true
  | .keyPlayPause _ => true
  | .keyNext _ => true
  | .keyPrev _ => true
  | .keyResetNetwork _ => true
  | .keyFactoryReset _ => true
  | .mcStatusReq => true
  | .mcSetVolume v => decide (v.toNat ≤ volumeSetMax)
  | .fcUnmute => true
  | .fcSpotify => true
  | .fcSwitchSpotify => true
  | .fcBt => true
  | .fcVolUp => true
  | .fcVolDown => true
  | .fcFactoryReset => true
  | .fcStandby => true

end Sys2Proof
end

