-- ==== Sys2Proof/Decode.lean ====
section
/-! DEFINITION. Decode.lean: from an encoded transaction to the instruction it stands for, total,
rejecting by name; then the encoder. The stimulus words are 30_encoding.md R90 and R97; the POST rows
R96; the status frame R82; the write record R87 with the router's targets (41_register_bus.md R190 to
R199) and the keys (R93); the command frame R80 with the module commands (R94). Where the rows of the
opcode table overlap, the more specific row wins (entry 11). The register map, the key payloads and
the command codes are the configuration's. -/

namespace Sys2Proof

/-- Why an input is in no format of the table. -/
inductive DecodeError where
  /-- the first three bytes are not 0xFF 'F' 'S' -/
  | badMagic
  /-- the length byte is not the one the format asks for, or not the number of bytes that follow -/
  | badLength
  /-- fewer bytes than a frame's header -/
  | truncated
  /-- no format of the opcode table has this width -/
  | noFormat
  /-- a command frame presented as an input: FSLINK sends these and takes none (R80, R90) -/
  | notAnInput
deriving DecidableEq, Repr

/-! ### Stimulus words -/

/-- KIND, bits 15:8 (R90). -/
def stimKind (w : StimWord) : Byte := w.extractLsb' 8 8

/-- OPERAND, bits 7:0 (R90). -/
def stimOperand (w : StimWord) : Byte := w.extractLsb' 0 8

/-- The decoder of R90: the sixteen stimulus rows. A word R90 does not assign is `illegal` (R97). -/
def decodeStim (w : StimWord) : Instr :=
  let o := stimOperand w
  match (stimKind w).toNat with
  | 0x01 => .tick o
  | 0x02 => .tick100 o
  | 0x10 => .rxb o
  | 0x11 => .post o
  | 0x12 => if o = 0 then .scan false else if o = 1 then .scan true else .illegal w
  | 0x13 => .txdrop o
  | 0x20 => if o = 0 then .baddrw else .illegal w
  | 0x21 => if o = 0 then .baddrr else .illegal w
  | 0x22 => .bwr o
  | 0x23 => if o = 0 then .brd else .illegal w
  | 0x24 => if o = 0 then .bstop false else if o = 1 then .bstop true else .illegal w
  | 0x25 => if o = 0 then .baf else .illegal w
  | 0x26 => if o = 0 then .berr else .illegal w
  | 0x30 => if o = 0 then .poll else .illegal w
  | 0x3F => if o = 0 then .reset else .illegal w
  | _ => .illegal w

/-- The POST row of an event code (R96). -/
def postRow (e : Byte) : Instr :=
  match e.toNat with
  | 0 => .postNone
  | 1 => .postVolUp
  | 2 => .postVolDown
  | 3 => .postModeToggle
  | 4 => .postSetModeFromModule
  | 5 => .postPower
  | 6 => .postFactoryReset
  | 7 => .postModuleVolumeSet
  | _ => .postOther e

/-- POST by its event code, every other stimulus as it is. -/
def stimRow (w : StimWord) : Instr :=
  match decodeStim w with
  | .post e => postRow e
  | i => i

/-! ### Write records and keys -/

/-- The eleven keys, in the order of R93. -/
def allKeys : List Key :=
  [.mute, .unmute, .spotifyMode, .btMode, .volUp, .volDown, .playPause, .next, .prev,
   .resetNetwork, .factoryReset]

/-- KeyMap as a lookup: the key of a payload byte, none for an unknown code (R93, 41_register_bus.md
R196). -/
def keyOf (c : Cfg) (payload : Byte) : Option Key :=
  allKeys.find? (fun k => decide ((c.keyCode k).payload = payload))

/-- The row of a key record. -/
def keyRow (k : Key) (lo : Byte) : Instr :=
  match k with
  | .mute => .keyMute lo
  | .unmute => .keyUnmute lo
  | .spotifyMode => .keySpotifyMode lo
  | .btMode => .keyBtMode lo
  | .volUp => .keyVolUp lo
  | .volDown => .keyVolDown lo
  | .playPause => .keyPlayPause lo
  | .next => .keyNext lo
  | .prev => .keyPrev lo
  | .resetNetwork => .keyResetNetwork lo
  | .factoryReset => .keyFactoryReset lo

/-- A register index as the byte the master sends. -/
def regByte (r : Fin 12) : Byte := BitVec.ofNat 8 r.val

/-- The row of a write record: the router's own order of tests (41_register_bus.md R190). -/
def recordRow (c : Cfg) (i lo hi : Byte) : Instr :=
  if i = regByte regKeyCmd then
    match keyOf c hi with
    | some k => keyRow k lo
    | none => .recKeyCmd lo hi
  else if i = regByte c.regVolumeSet then .recVolumeSet lo hi
  else if i = regByte c.regAuxCtrl then .recAuxCtrl lo hi
  else if i.toNat < regFileSize then .recRawStore i lo hi
  else if i.toNat ≤ regIndexMax then .recOob i lo hi
  else .recReject i lo hi

/-! ### Frames -/

/-- The row of an inbound status frame: magic, LEN at most 4, exactly LEN payload bytes (R82). -/
def decodeStatus (bs : List Byte) : Except DecodeError Instr :=
  match bs with
  | m0 :: m1 :: m2 :: len :: payload =>
    if m0 = magic0 ∧ m1 = magic1 ∧ m2 = magic2 then
      if len.toNat ≤ statusMaxLen ∧ payload.length = len.toNat then .ok (.statusFrame payload)
      else .error .badLength
    else .error .badMagic
  | _ => .error .truncated

/-- The row of a (CMD, DATA) pair: the module commands of R94 in the table's order, else CMD_FRAME. -/
def cmdRow (c : Cfg) (p : CmdPair) : Instr :=
  if p = c.mcStatusReq then .mcStatusReq
  else if p.cmd = c.mcSetVolume ∧ p.data.toNat ≤ volumeSetMax then .mcSetVolume p.data
  else if p = c.fcUnmute then .fcUnmute
  else if p = c.fcSpotify then .fcSpotify
  else if p = c.fcSwitchSpotify then .fcSwitchSpotify
  else if p = c.fcBt then .fcBt
  else if p = c.fcVolUp then .fcVolUp
  else if p = c.fcVolDown then .fcVolDown
  else if p = c.fcFactoryReset then .fcFactoryReset
  else if p = c.fcStandby then .fcStandby
  else .cmdFrame p.cmd p.data

/-- The row of an outbound command frame (R80): magic in bits 47:24, LEN in 23:16, CMD in 15:8, DATA
in 7:0. -/
def decodeCmd (c : Cfg) (w : FrameWord) : Except DecodeError Instr :=
  if w.extractLsb' 40 8 = magic0 ∧ w.extractLsb' 32 8 = magic1 ∧ w.extractLsb' 24 8 = magic2 then
    if w.extractLsb' 16 8 = cmdLen then .ok (cmdRow c ⟨w.extractLsb' 8 8, w.extractLsb' 0 8⟩)
    else .error .badLength
  else .error .badMagic

/-- The decoder. -/
def decode (c : Cfg) (x : Wire) : Except DecodeError Instr :=
  match x with
  | .stim w => .ok (stimRow w)
  | .record w => .ok (recordRow c (w.extractLsb' 16 8) (w.extractLsb' 8 8) (w.extractLsb' 0 8))
  | .status bs => decodeStatus bs
  | .cmd w => decodeCmd c w
  | .unknown _ _ => .error .noFormat

/-- The instruction an INPUT stands for. A command frame is what FSLINK puts on SER_OUT; no stimulus of
R90 carries one in (00_scope.md R1; entry 14). -/
def decodeInput (c : Cfg) (x : Wire) : Except DecodeError Instr :=
  match x with
  | .stim w => decode c (.stim w)
  | .record w => decode c (.record w)
  | .status bs => decode c (.status bs)
  | .cmd _ => .error .notAnInput
  | .unknown n w => decode c (.unknown n w)

/-! ### The opcode table's numbering -/

/-- The transaction whose bits are `w`, numbered as the opcode table numbers them. The widths are the
formats'; the one status row is the 24-bit pattern 0xFF4653, and every bit above it 0 makes it the
frame with LEN = 0 (entry 11). -/
def tableWire (nbits w : Nat) : Wire :=
  if nbits = 16 then .stim (BitVec.ofNat 16 w)
  else if nbits = 24 then
    if w = 0xFF4653 then .status [magic0, magic1, magic2, 0] else .record (BitVec.ofNat 24 w)
  else if nbits = 48 then .cmd (BitVec.ofNat 48 w)
  else .unknown nbits w

/-- The host's question: the instruction the decoder reads from a table word, under CFG0 (the
configuration the table's register and command rows are written for). -/
def decodeTableWord (nbits w : Nat) : Option Instr :=
  match decode cfg0 (tableWire nbits w) with
  | .ok i => some i
  | .error _ => none

/-! ### The encoder -/

/-- A stimulus word from its KIND and OPERAND (R90). -/
def stimWord (kind operand : Byte) : Wire := .stim (kind ++ operand)

/-- A write record from its three bytes (R87). -/
def recordWord (i lo hi : Byte) : Wire := .record (i ++ lo ++ hi)

/-- The key record of a key: index REG_KEY_CMD, the payload in the high data byte (R88, R93). -/
def keyWord (c : Cfg) (k : Key) (lo : Byte) : Wire :=
  recordWord (regByte regKeyCmd) lo (c.keyCode k).payload

/-- A command frame from its (CMD, DATA) pair (R80). -/
def cmdWord (p : CmdPair) : Wire := .cmd (magic0 ++ magic1 ++ magic2 ++ cmdLen ++ p.cmd ++ p.data)

/-- The bytes of a status frame (R82). -/
def statusBytes (payload : List Byte) : List Byte :=
  magic0 :: magic1 :: magic2 :: BitVec.ofNat 8 payload.length :: payload

/-- A Bool as an OPERAND (R90's SCAN and BSTOP). -/
def boolByte (b : Bool) : Byte := if b then 1 else 0

/-- RXSEQ's expansion (R92). -/
def rxWords (bs : List Byte) : List Wire := bs.map (stimWord 0x10)

/-- BWRITE's expansion (R92). -/
def bwriteWords (i lo hi : Byte) : List Wire :=
  [stimWord 0x20 0, stimWord 0x22 i, stimWord 0x22 lo, stimWord 0x22 hi]

/-- WAIT's expansion (R92). -/
def waitWords (t : Nat) : List Wire :=
  (if 100 ≤ t then [stimWord 0x02 (BitVec.ofNat 8 (t / 100))] else []) ++
  (if t % 100 ≠ 0 then [stimWord 0x01 (BitVec.ofNat 8 (t % 100))] else [])

/-- The encoder: the transactions an instruction is written as. One for a row with an encoding, the
expansion for a script line (R92). -/
def encode (c : Cfg) : Instr → List Wire
  | .tick n => [stimWord 0x01 n]
  | .tick100 n => [stimWord 0x02 n]
  | .rxb b => [stimWord 0x10 b]
  | .post e => [stimWord 0x11 e]
  | .scan b => [stimWord 0x12 (boolByte b)]
  | .txdrop n => [stimWord 0x13 n]
  | .baddrw => [stimWord 0x20 0]
  | .baddrr => [stimWord 0x21 0]
  | .bwr b => [stimWord 0x22 b]
  | .brd => [stimWord 0x23 0]
  | .bstop p => [stimWord 0x24 (boolByte p)]
  | .baf => [stimWord 0x25 0]
  | .berr => [stimWord 0x26 0]
  | .poll => [stimWord 0x30 0]
  | .reset => [stimWord 0x3F 0]
  | .illegal w => [.stim w]
  | .postNone => [stimWord 0x11 0]
  | .postVolUp => [stimWord 0x11 1]
  | .postVolDown => [stimWord 0x11 2]
  | .postModeToggle => [stimWord 0x11 3]
  | .postSetModeFromModule => [stimWord 0x11 4]
  | .postPower => [stimWord 0x11 5]
  | .postFactoryReset => [stimWord 0x11 6]
  | .postModuleVolumeSet => [stimWord 0x11 7]
  | .postOther e => [stimWord 0x11 e]
  | .rxseq bs => rxWords bs
  | .rxstatus d0 d1 d2 d3 => rxWords (statusBytes [d0, d1, d2, d3])
  | .bwrite i lo hi => bwriteWords i lo hi
  | .bsetidx i => [stimWord 0x20 0, stimWord 0x22 i]
  | .bread n =>
    [stimWord 0x21 0] ++ List.replicate n (stimWord 0x23 0) ++ [stimWord 0x25 0, stimWord 0x24 0]
  | .wait t => waitWords t.val
  | .nop => []
  | .cmdFrame cm d => [cmdWord ⟨cm, d⟩]
  | .statusFrame payload => [.status (statusBytes payload)]
  | .writeRecord i lo hi => [recordWord i lo hi]
  | .recReject i lo hi => [recordWord i lo hi]
  | .recRawStore i lo hi => [recordWord i lo hi]
  | .recOob i lo hi => [recordWord i lo hi]
  | .recKeyCmd lo hi => [recordWord (regByte regKeyCmd) lo hi]
  | .recAuxCtrl lo hi => [recordWord (regByte c.regAuxCtrl) lo hi]
  | .recVolumeSet lo hi => [recordWord (regByte c.regVolumeSet) lo hi]
  | .keyMute lo => [keyWord c .mute lo]
  | .keyUnmute lo => [keyWord c .unmute lo]
  | .keySpotifyMode lo => [keyWord c .spotifyMode lo]
  | .keyBtMode lo => [keyWord c .btMode lo]
  | .keyVolUp lo => [keyWord c .volUp lo]
  | .keyVolDown lo => [keyWord c .volDown lo]
  | .keyPlayPause lo => [keyWord c .playPause lo]
  | .keyNext lo => [keyWord c .next lo]
  | .keyPrev lo => [keyWord c .prev lo]
  | .keyResetNetwork lo => [keyWord c .resetNetwork lo]
  | .keyFactoryReset lo => [keyWord c .factoryReset lo]
  | .mcStatusReq => [cmdWord c.mcStatusReq]
  | .mcSetVolume v => [cmdWord ⟨c.mcSetVolume, v⟩]
  | .fcUnmute => [cmdWord c.fcUnmute]
  | .fcSpotify => [cmdWord c.fcSpotify]
  | .fcSwitchSpotify => [cmdWord c.fcSwitchSpotify]
  | .fcBt => [cmdWord c.fcBt]
  | .fcVolUp => [cmdWord c.fcVolUp]
  | .fcVolDown => [cmdWord c.fcVolDown]
  | .fcFactoryReset => [cmdWord c.fcFactoryReset]
  | .fcStandby => [cmdWord c.fcStandby]

/-- Whether the decoder reads an instruction's own words as THIS instruction: false where a more
specific row, or an earlier row of the same words, takes them (entry 11), and for script lines, whose
expansion is several stimuli. -/
def isPrimary (c : Cfg) : Instr → Bool
  | .tick _ => true
  | .tick100 _ => true
  | .rxb _ => true
  | .post _ => false
  | .scan _ => true
  | .txdrop _ => true
  | .baddrw => true
  | .baddrr => true
  | .bwr _ => true
  | .brd => true
  | .bstop _ => true
  | .baf => true
  | .berr => true
  | .poll => true
  | .reset => true
  | .illegal _ => true
  | .postNone => true
  | .postVolUp => true
  | .postVolDown => true
  | .postModeToggle => true
  | .postSetModeFromModule => true
  | .postPower => true
  | .postFactoryReset => true
  | .postModuleVolumeSet => true
  | .postOther _ => true
  | .rxseq _ => false
  | .rxstatus _ _ _ _ => false
  | .bwrite _ _ _ => false
  | .bsetidx _ => false
  | .bread _ => false
  | .wait _ => false
  | .nop => false
  | .cmdFrame cm d => decide (cmdRow c ⟨cm, d⟩ = .cmdFrame cm d)
  | .statusFrame _ => true
  | .writeRecord _ _ _ => false
  | .recReject _ _ _ => true
  | .recRawStore i _ _ =>
    decide (i ≠ regByte regKeyCmd ∧ i ≠ regByte c.regVolumeSet ∧ i ≠ regByte c.regAuxCtrl)
  | .recOob _ _ _ => true
  | .recKeyCmd _ hi => decide (keyOf c hi = none)
  | .recAuxCtrl _ _ => decide (c.regAuxCtrl ≠ regKeyCmd ∧ c.regAuxCtrl ≠ c.regVolumeSet)
  | .recVolumeSet _ _ => decide (c.regVolumeSet ≠ regKeyCmd)
  | .keyMute _ => decide (keyOf c (c.keyCode .mute).payload = some .mute)
  | .keyUnmute _ => decide (keyOf c (c.keyCode .unmute).payload = some .unmute)
  | .keySpotifyMode _ => decide (keyOf c (c.keyCode .spotifyMode).payload = some .spotifyMode)
  | .keyBtMode _ => decide (keyOf c (c.keyCode .btMode).payload = some .btMode)
  | .keyVolUp _ => decide (keyOf c (c.keyCode .volUp).payload = some .volUp)
  | .keyVolDown _ => decide (keyOf c (c.keyCode .volDown).payload = some .volDown)
  | .keyPlayPause _ => decide (keyOf c (c.keyCode .playPause).payload = some .playPause)
  | .keyNext _ => decide (keyOf c (c.keyCode .next).payload = some .next)
  | .keyPrev _ => decide (keyOf c (c.keyCode .prev).payload = some .prev)
  | .keyResetNetwork _ => decide (keyOf c (c.keyCode .resetNetwork).payload = some .resetNetwork)
  | .keyFactoryReset _ => decide (keyOf c (c.keyCode .factoryReset).payload = some .factoryReset)
  | .mcStatusReq => true
  | .mcSetVolume v => decide (cmdRow c ⟨c.mcSetVolume, v⟩ = .mcSetVolume v)
  | .fcUnmute => decide (cmdRow c c.fcUnmute = .fcUnmute)
  | .fcSpotify => decide (cmdRow c c.fcSpotify = .fcSpotify)
  | .fcSwitchSpotify => decide (cmdRow c c.fcSwitchSpotify = .fcSwitchSpotify)
  | .fcBt => decide (cmdRow c c.fcBt = .fcBt)
  | .fcVolUp => decide (cmdRow c c.fcVolUp = .fcVolUp)
  | .fcVolDown => decide (cmdRow c c.fcVolDown = .fcVolDown)
  | .fcFactoryReset => decide (cmdRow c c.fcFactoryReset = .fcFactoryReset)
  | .fcStandby => decide (cmdRow c c.fcStandby = .fcStandby)

end Sys2Proof
end

