-- ==== Sys2Proof/Machine/State.lean ====
section
/-! DEFINITION. State.lean: everything the spec gives FSLINK (10_state.md), grouped by owner as R20
groups it, beside the configuration, the ports' histories and the environment's inputs (R48, R49).
Plain data throughout. `State.reset` is 70_reset_and_hazards.md R301. -/

namespace Sys2Proof.Machine

/-! ### Types of the fields -/

/-- `sync_state` (10_state.md R24). -/
inductive SyncState where
  | awaitM1 | awaitM2 | awaitM3 | collect
deriving DecidableEq, Repr

/-- `bus_state` (10_state.md R35). `errRecovery` is transient (41_register_bus.md R182). -/
inductive BusState where
  | idle | addrW | addrR | errRecovery
deriving DecidableEq, Repr

/-- `TaskState` (10_state.md R43). -/
inductive TaskState where
  | idle | init | run | pause | stop
deriving DecidableEq, Repr

/-- A timer (10_state.md R47). -/
structure Timer where
  armed : Bool
  start : Nat
deriving DecidableEq, Repr

/-- Four bytes, numbered 0 to 3: a status snapshot or the synchronizer's buffer (R27, R28). -/
structure Quad where
  b0 : Byte
  b1 : Byte
  b2 : Byte
  b3 : Byte
deriving DecidableEq, Repr

/-- The write record `rec[0..2]` (R36): index, low data byte, high data byte. -/
structure Record where
  index : Byte
  lo : Byte
  hi : Byte
deriving DecidableEq, Repr

/-- One task state per mode (R43). -/
structure Tasks where
  idle : TaskState
  standby : TaskState
  booting : TaskState
  bluetoothA2DP : TaskState
  spotifyConnect : TaskState
  factoryReset : TaskState
  networkConfig : TaskState
deriving DecidableEq, Repr

/-- The register file as cells (index, byte) in one canonical form: `Memory.wf`. -/
abbrev Memory := List Host.Cell

/-! ### The groups of R20 -/

/-- The Byte Stream Synchronizer (R23 to R27). -/
structure Sync where
  rxFifo : List Byte
  state : SyncState
  len : BitVec 3
  count : BitVec 3
  buf : Quad
deriving DecidableEq, Repr

/-- The Companion Link (R28 to R32). -/
structure Link where
  cur : Quad
  prev : Quad
  ready : Bool
  tReq : Timer
  volInFlight : Bool
  tEcho : Timer
deriving DecidableEq, Repr

/-- The Register Bus Slave (R35 to R41). -/
structure Bus where
  state : BusState
  record : Record
  rxCount : BitVec 2
  txCount : BitVec 32
  startPosition : Byte
  txPos : Byte
  lastRxCount : BitVec 2
  lastTxCount : BitVec 32
deriving DecidableEq, Repr

/-- The Mode State Machine (R42 to R45). -/
structure Fsm where
  mode : Mode
  nextMode : Mode
  prevMode : Mode
  tasks : Tasks
  volume : BitVec 7
  fromModule : Bool
  factoryInProgress : Bool
  scanInProgress : Bool
  netcfgDiscLatch : Bool
  event : Byte
  diagCounter : Byte
  tBlock : Timer
  tDebounce : Timer
  tBoot : Timer
  tGrace : Timer
deriving DecidableEq, Repr

/-- The ports' histories and the script counter (R48, R49): not reset by RESET. -/
structure Io where
  txLog : List Byte
  rdLog : List Byte
  ackLog : List Bool
  envTxDrop : Nat
deriving DecidableEq, Repr

/-- What the environment has in store: the inputs the step takes, oldest first (entry 8), and what is
taken at the coming interrupt points, one list of whole stimuli each (entry 7). `issue` is no input: a
command frame whose sending is run by itself, outside the POLL or bus stimulus it belongs to; none at
reset, and nothing FSLINK or its environment does sets it (entry 14). -/
structure Input where
  pending : List Wire
  ipSched : List (List IpStim)
  issue : Option FrameWord
deriving DecidableEq, Repr

/-- The whole state. -/
structure State where
  /-- the configuration, fixed for a run (00_scope.md R7; entry 1) -/
  cfg : Cfg
  now : Nat
  sync : Sync
  link : Link
  mem : Memory
  indicator : Bool
  bus : Bus
  fsm : Fsm
  faultRegfileOob : Bool
  refused : Bool
  io : Io
  input : Input
  /-- how many draws the run has made: the argument of the free values (entry 5) -/
  draws : Nat
  /-- the run is a script: what TXDROP does not drop is accepted (30_encoding.md R91, R95; entry 6) -/
  scripted : Bool
deriving DecidableEq, Repr

/-! ### Reset values (70_reset_and_hazards.md R301) -/

/-- An unarmed timer with start 0 (R47). -/
def Timer.unarmed : Timer := ⟨false, 0⟩

/-- Four zero bytes. -/
def Quad.zero : Quad := ⟨0, 0, 0, 0⟩

/-- The cleared record. -/
def Record.zero : Record := ⟨0, 0, 0⟩

/-- Every task Idle. -/
def Tasks.allIdle : Tasks := ⟨.idle, .idle, .idle, .idle, .idle, .idle, .idle⟩

/-- The synchronizer at reset. -/
def Sync.reset : Sync := ⟨[], .awaitM1, 0, 0, Quad.zero⟩

/-- The companion link at reset. -/
def Link.reset : Link := ⟨Quad.zero, Quad.zero, false, Timer.unarmed, false, Timer.unarmed⟩

/-- The bus slave at reset: listening. -/
def Bus.reset : Bus := ⟨.idle, Record.zero, 0, 0, 0, 0, 0, 0⟩

/-- The register file at reset: the firmware id at its index, every other entry 0 (unlisted). -/
def resetMemory (c : Cfg) : Memory := if c.fwId = 0 then [] else [(c.regFwId.val, c.fwId)]

/-- The mode state machine at reset. -/
def Fsm.reset (c : Cfg) : Fsm where
  mode := .booting
  nextMode := .booting
  prevMode := .spotifyConnect
  tasks := Tasks.allIdle
  volume := c.initVolume
  fromModule := false
  factoryInProgress := false
  scanInProgress := false
  netcfgDiscLatch := false
  event := 0
  diagCounter := 0
  tBlock := Timer.unarmed
  tDebounce := Timer.unarmed
  tBoot := Timer.unarmed
  tGrace := Timer.unarmed

/-- The machine right after power-on under configuration `c`: R301 for FSLINK's own elements, the
histories empty, no input in store (entries 7, 8, 9), the draws free (entry 6). -/
def State.resetOf (c : Cfg) : State where
  cfg := c
  now := 0
  sync := Sync.reset
  link := Link.reset
  mem := resetMemory c
  indicator := false
  bus := Bus.reset
  fsm := Fsm.reset c
  faultRegfileOob := false
  refused := false
  io := ⟨[], [], [], 0⟩
  input := ⟨[], [], none⟩
  draws := 0
  scripted := false

/-- The machine right after reset, under CFG0 (entry 1). -/
def State.reset : State := State.resetOf cfg0

/-! ### How a step can stop -/

/-- Faults: none. FSLINK raises no exception and never halts (60_exceptions.md R270,
70_reset_and_hazards.md R331); its model fault REGFILE_OOB is the sticky bit `faultRegfileOob`, a next
state (10_state.md R46; entry 10). Safe: nothing is lost, a state with the bit set is never final. -/
inductive Fault where
deriving DecidableEq, Repr

/-- Refusals: none is ever raised. -/
inductive Refusal where
  /-- Raised by `exec` for an instruction that has no meaning yet; no arm does. Safe: nothing can be
  proved of what the instruction does. -/
  | notModelled (mnemonic : String)
deriving DecidableEq, Repr

/-- What an instruction or a step answers. -/
abbrev Result := Host.Outcome State Fault Refusal

end Sys2Proof.Machine
end

