-- ==== Sys2Proof/Machine/Operands.lean ====
section
/-! DEFINITION. Operands.lean: the fields the rules read out of bytes and records: the record's
16-bit value (20_memory.md R65), the snapshot's sub-fields (30_encoding.md R84 to R86), the module
predicates and maps (42_mode_fsm.md R223, R230), the codes of the state names (10_state.md R24, R35,
R42, R43). -/

namespace Sys2Proof.Machine

/-! ### Four bytes and three bytes -/

/-- Entry k of four bytes; there is no entry beyond 3, and no rule reads one (log entry 16). -/
def Quad.get (q : Quad) (k : Nat) : Byte :=
  match k with
  | 0 => q.b0
  | 1 => q.b1
  | 2 => q.b2
  | _ => q.b3

/-- Writing entry k; a k beyond 3 has no entry and writes nothing (log entry 16). -/
def Quad.set (q : Quad) (k : Nat) (v : Byte) : Quad :=
  match k with
  | 0 => { q with b0 := v }
  | 1 => { q with b1 := v }
  | 2 => { q with b2 := v }
  | 3 => { q with b3 := v }
  | _ => q

/-- The first `n` entries from `src`, the others from `q` (40_serial_link.md R117's copy). -/
def Quad.copyFirst (q src : Quad) (n : Nat) : Quad where
  b0 := if 0 < n then src.b0 else q.b0
  b1 := if 1 < n then src.b1 else q.b1
  b2 := if 2 < n then src.b2 else q.b2
  b3 := if 3 < n then src.b3 else q.b3

/-- Writing byte k of the record; there is no byte beyond 2 (log entry 16). -/
def Record.set (r : Record) (k : Nat) (v : Byte) : Record :=
  match k with
  | 0 => { r with index := v }
  | 1 => { r with lo := v }
  | 2 => { r with hi := v }
  | _ => r

/-- `data16 = rec[1] + 256 * rec[2]` (20_memory.md R65): the high byte above the low byte. -/
def Record.data16 (r : Record) : BitVec 16 := r.hi ++ r.lo

/-! ### Snapshot sub-fields (30_encoding.md R84) -/

/-- The 4-bit field of a byte whose lowest bit is `lo`. -/
def nibble (b : Byte) (lo : Fin 5) : BitVec 4 := b.extractLsb' lo.val 4

/-- WifiNib of a snapshot. -/
def wifiNibOf (c : Cfg) (s : Quad) : BitVec 4 := nibble s.b0 c.wifiNib

/-- BtNib of a snapshot; no rule of FSLINK reads it (R84). -/
def btNibOf (c : Cfg) (s : Quad) : BitVec 4 := nibble s.b0 c.btNib

/-- ModeNib of byte 1. -/
def modeNibOf (c : Cfg) (b : Byte) : BitVec 4 := nibble b c.modeNib

/-- SpotifyNib of byte 1. -/
def spotifyNibOf (c : Cfg) (b : Byte) : BitVec 4 := nibble b c.spotifyNib

/-- VOL, bits 6:0 of byte 2. -/
def volOf (b : Byte) : BitVec 7 := b.extractLsb' 0 7

/-- MUTE, bit 7 of byte 2. -/
def muteOf (b : Byte) : Bool := b.getLsbD 7

/-- `fs_comm_mute_volume_convert` (30_encoding.md R85): mute in bit 7, volume in bits 6:0. -/
def convert (mute : Bool) (vol : BitVec 7) : Byte := BitVec.ofBool mute ++ vol

/-! ### Module predicates and maps (42_mode_fsm.md R223, R230) -/

/-- What a snapshot predicate of the configuration says of a snapshot. -/
def snapHolds (c : Cfg) (s : Quad) : SnapPred → Bool
  | .wifiIs n => decide (wifiNibOf c s = n)
  | .bits i m v => decide (s.get i.val &&& m = v)
  | .neg p => !snapHolds c s p
  | .both p q => snapHolds c s p && snapHolds c s q
  | .either p q => snapHolds c s p || snapHolds c s q

/-- `wifiConnected(s)`. -/
def wifiConnected (c : Cfg) (s : Quad) : Bool := snapHolds c s c.wifiConnected

/-- `inWifiSetup(s)`. -/
def inWifiSetup (c : Cfg) (s : Quad) : Bool := snapHolds c s c.inWifiSetup

/-- `wifiDisconnected(s)`: neither connected nor in setup. -/
def wifiDisconnected (c : Cfg) (s : Quad) : Bool := !wifiConnected c s && !inWifiSetup c s

/-- `reconnErr(s)`. -/
def reconnErr (c : Cfg) (s : Quad) : Bool := s.b3.getLsbD c.errWifiReconnBit.val

/-- `factoryBusy(s)`. -/
def factoryBusy (c : Cfg) (s : Quad) : Bool := s.b3.getLsbD c.errFactoryBit.val

/-- `moduleModeMap(n)`; none is "no mode". -/
def moduleModeOf (c : Cfg) (n : BitVec 4) : Option Mode :=
  (c.moduleModeMap.find? (fun r => decide (r.1 = n))).map Prod.snd

/-- A startup mode as a mode. -/
def bootMode : BootTarget → Mode
  | .spotifyConnect => .spotifyConnect
  | .standby => .standby
  | .networkConfig => .networkConfig

/-- A decision list's answer for a snapshot. -/
def bootTableOf (c : Cfg) (s : Quad) (t : BootTable) : BootTarget :=
  match t.rows.find? (fun r => snapHolds c s r.1) with
  | some r => r.2
  | none => t.otherwise

/-- `BootRule(s)`, its standby variant where CONFIG_STANDBY is set (42_mode_fsm.md R230). -/
def bootRuleOf (c : Cfg) (s : Quad) : Mode :=
  bootMode (bootTableOf c s (if c.configStandby then c.bootRuleStandby else c.bootRule))

/-! ### Event codes (30_encoding.md R96) -/

/-- EV_NONE: the slot is empty. -/
def evNone : Byte := 0x00
/-- EV_VOL_UP. -/
def evVolUp : Byte := 0x01
/-- EV_VOL_DOWN. -/
def evVolDown : Byte := 0x02
/-- EV_MODE_TOGGLE. -/
def evModeToggle : Byte := 0x03
/-- EV_SET_MODE_FROM_MODULE. -/
def evSetModeFromModule : Byte := 0x04
/-- EV_POWER. -/
def evPower : Byte := 0x05
/-- EV_FACTORY_RESET. -/
def evFactoryReset : Byte := 0x06
/-- EV_MODULE_VOLUME_SET. -/
def evModuleVolumeSet : Byte := 0x07

/-! ### Codes of the state names -/

/-- The 2-bit code of `sync_state` (10_state.md R24). -/
def syncCode : SyncState → BitVec 2
  | .awaitM1 => 0
  | .awaitM2 => 1
  | .awaitM3 => 2
  | .collect => 3

/-- The 2-bit code of `bus_state` (10_state.md R35). -/
def busCode : BusState → BitVec 2
  | .idle => 0
  | .addrW => 1
  | .addrR => 2
  | .errRecovery => 3

/-- The 3-bit code of a mode (10_state.md R42); 7 is no mode. -/
def modeCode : Mode → BitVec 3
  | .idle => 0
  | .standby => 1
  | .booting => 2
  | .bluetoothA2DP => 3
  | .spotifyConnect => 4
  | .factoryReset => 5
  | .networkConfig => 6

/-- The 3-bit code of a task state (10_state.md R43). -/
def taskCode : TaskState → BitVec 3
  | .idle => 0
  | .init => 1
  | .run => 2
  | .pause => 3
  | .stop => 4

/-! ### Tasks by mode -/

/-- `task[m]`. -/
def Tasks.get (t : Tasks) : Mode → TaskState
  | .idle => t.idle
  | .standby => t.standby
  | .booting => t.booting
  | .bluetoothA2DP => t.bluetoothA2DP
  | .spotifyConnect => t.spotifyConnect
  | .factoryReset => t.factoryReset
  | .networkConfig => t.networkConfig

/-- `task[m] <- v`. -/
def Tasks.set (t : Tasks) (m : Mode) (v : TaskState) : Tasks :=
  match m with
  | .idle => { t with idle := v }
  | .standby => { t with standby := v }
  | .booting => { t with booting := v }
  | .bluetoothA2DP => { t with bluetoothA2DP := v }
  | .spotifyConnect => { t with spotifyConnect := v }
  | .factoryReset => { t with factoryReset := v }
  | .networkConfig => { t with networkConfig := v }

end Sys2Proof.Machine
end

