-- ==== Sys2Proof/Machine/Flags.lean ====
section
/-! DEFINITION. Flags.lean: the conditions the rules test: the timer primitives of 00_scope.md R12
(time is counted modulo 2^TICK_BITS), the canonical form of the register file, and whether a state is
final (70_reset_and_hazards.md R331). -/

namespace Sys2Proof.Machine

/-- A tick value modulo 2^TICK_BITS (10_state.md R22). -/
def wrapTick (c : Cfg) (n : Nat) : Nat := n % 2 ^ c.tickBits

/-- `a -_TICK_BITS b` (00_scope.md R11). -/
def tickSub (c : Cfg) (a b : Nat) : Nat := wrapTick c (a + (2 ^ c.tickBits - wrapTick c b))

/-- `Arm(T)` at time `now`. -/
def Timer.arm (now : Nat) : Timer := ⟨true, now⟩

/-- `Disarm(T)`: only `armed` changes. -/
def Timer.disarm (t : Timer) : Timer := { t with armed := false }

/-- `Elapsed(T)`. -/
def elapsed (c : Cfg) (now : Nat) (t : Timer) : Nat := tickSub c now t.start

/-- `Expired(T, P)`: an unarmed timer counts as expired. -/
def expired (c : Cfg) (now : Nat) (t : Timer) (period : Nat) : Bool :=
  !t.armed || decide (period ≤ elapsed c now t)

/-- `Running(T, P)`. -/
def running (c : Cfg) (now : Nat) (t : Timer) (period : Nat) : Bool := !expired c now t period

/-- Whether a task state is one RequestMode works from: Init, Run or Pause (42_mode_fsm.md R216). -/
def taskActive : TaskState → Bool
  | .idle => false
  | .init => true
  | .run => true
  | .pause => true
  | .stop => false

/-- The canonical form of the register file above index `lo`: indices strictly rising, every index a
storage index, no entry equal to what an unlisted index reads as. -/
def Memory.wfFrom (lo : Nat) : Memory → Bool
  | [] => true
  | (a, v) :: rest =>
    decide (lo ≤ a) && decide (a < regFileSize) && decide (v ≠ 0) && Memory.wfFrom (a + 1) rest

/-- The canonical form of the register file. -/
def Memory.wf (m : Memory) : Bool := Memory.wfFrom 0 m

/-- A final state: neither sticky mark is set (70_reset_and_hazards.md R331). -/
def State.final (s : State) : Bool := !s.faultRegfileOob && !s.refused

end Sys2Proof.Machine
end

