-- ==== Sys2Proof/Machine/Ops.lean ====
section
/-! DEFINITION. Ops.lean: the named operations every meaning is written over: replacing one group of
the state, the register file's read and write (20_memory.md R61, R62), the draws (00_scope.md R12),
the encoder (40_serial_link.md R120 to R124), the event slot (42_mode_fsm.md R211). FSLINK takes no
exception (60_exceptions.md R270); its one asynchronous entry, the interrupt point, is the shared
operation of Machine/Interrupt.lean. -/

namespace Sys2Proof.Machine

/-! ### Replacing one group of the state -/

/-- Replace `now`. -/
def State.withNow (s : State) (v : Nat) : State := { s with now := v }
/-- Replace the synchronizer. -/
def State.withSync (s : State) (v : Sync) : State := { s with sync := v }
/-- Replace the companion link. -/
def State.withLink (s : State) (v : Link) : State := { s with link := v }
/-- Replace the register file. -/
def State.withMem (s : State) (v : Memory) : State := { s with mem := v }
/-- Replace the indicator level. -/
def State.withIndicator (s : State) (v : Bool) : State := { s with indicator := v }
/-- Replace the bus slave. -/
def State.withBus (s : State) (v : Bus) : State := { s with bus := v }
/-- Replace the mode state machine. -/
def State.withFsm (s : State) (v : Fsm) : State := { s with fsm := v }
/-- Replace `fault_regfile_oob`. -/
def State.withFault (s : State) (v : Bool) : State := { s with faultRegfileOob := v }
/-- Replace the `refused` mark. -/
def State.withRefused (s : State) (v : Bool) : State := { s with refused := v }
/-- Replace the ports' histories. -/
def State.withIo (s : State) (v : Io) : State := { s with io := v }
/-- Replace the inputs in store. -/
def State.withInput (s : State) (v : Input) : State := { s with input := v }
/-- Replace the draw counter. -/
def State.withDraws (s : State) (v : Nat) : State := { s with draws := v }

/-! ### The register file -/

/-- The stored byte at an index; an unlisted index reads 0 (10_state.md R33: every entry the reset
does not name is 0). -/
def Memory.read (m : Memory) (a : Nat) : Byte :=
  match m with
  | [] => 0
  | (k, v) :: rest => if k = a then v else Memory.read rest a

/-- Put a cell at index `a`, none where the byte is 0: the canonical form is kept. -/
def Memory.put (a : Nat) (v : Byte) (rest : Memory) : Memory := if v = 0 then rest else (a, v) :: rest

/-- Write a byte at an index, keeping the canonical form. -/
def Memory.write (m : Memory) (a : Nat) (v : Byte) : Memory :=
  match m with
  | [] => Memory.put a v []
  | (k, w) :: rest =>
    if a < k then Memory.put a v ((k, w) :: rest)
    else if a = k then Memory.put a v rest
    else (k, w) :: Memory.write rest a v

/-- `reg[i] <- v` (20_memory.md R62): an index past the storage is not written. -/
def State.regWrite (s : State) (i : Nat) (v : Byte) : State :=
  if i < regFileSize then s.withMem (s.mem.write i v) else s

/-- The byte `RegRead(i)` answers (20_memory.md R61): the stored byte, or past the storage a draw. -/
def State.regReadByte (s : State) (i : Byte) : Byte :=
  if i.toNat < regFileSize then s.mem.read i.toNat else Config.drawByte s.draws

/-- The draw `RegRead(i)` uses up, if it makes one. -/
def State.afterRegRead (s : State) (i : Byte) : State :=
  if i.toNat < regFileSize then s else s.withDraws (s.draws + 1)

/-! ### The ports' histories -/

/-- `append(ack_log, b)`. -/
def State.logAck (s : State) (b : Bool) : State := s.withIo { s.io with ackLog := s.io.ackLog ++ [b] }

/-- `append(rd_log, b)`. -/
def State.logRead (s : State) (b : Byte) : State := s.withIo { s.io with rdLog := s.io.rdLog ++ [b] }

/-- `append(tx_log, b)`. -/
def State.logTx (s : State) (b : Byte) : State := s.withIo { s.io with txLog := s.io.txLog ++ [b] }

/-! ### The encoder -/

/-- Whether the sink takes the next offered byte, where TXDROP does not decide it: yes in a script
(30_encoding.md R95), else the next draw (40_serial_link.md R124). -/
def State.sinkAccepts (s : State) : Bool := s.scripted || Config.drawAccept s.draws

/-- `Emit(b)` (40_serial_link.md R124). -/
def emit (b : Byte) (s : State) : State :=
  if 0 < s.io.envTxDrop then s.withIo { s.io with envTxDrop := s.io.envTxDrop - 1 }
  else
    let t := s.withDraws (s.draws + 1)
    if s.sinkAccepts then t.logTx b else t

/-- The six bytes of a command frame, the first sent first (30_encoding.md R80). -/
def frameBytes (p : CmdPair) : List Byte := [magic0, magic1, magic2, cmdLen, p.cmd, p.data]

/-- Offer a run of bytes with no interrupt point between them. -/
def emitAll (bs : List Byte) (s : State) : State := bs.foldl (fun t b => emit b t) s

/-- `SendFrame(c, d)` in the bus agent: no interrupt point, six contiguous bytes (40_serial_link.md
R121). -/
def sendFrameBus (p : CmdPair) (s : State) : State := emitAll (frameBytes p) s

/-! ### The event slot -/

/-- `Post(e)` (42_mode_fsm.md R211). -/
def postEvent (e : Byte) (s : State) : State := s.withFsm { s.fsm with event := e }

end Sys2Proof.Machine
end

