-- ==== Sys2Proof/Machine/BusSlave.lean ====
section
/-! DEFINITION. BusSlave.lean: the command router (41_register_bus.md R190 to R200) and the register
bus slave (R169 to R184). Each bus stimulus runs to completion: no interrupt point stands inside
(20_memory.md R70). -/

namespace Sys2Proof.Machine

/-! ### The command router -/

/-- `raise Fault(REGFILE_OOB)` (R193, 60_exceptions.md R278): the sticky bit; nothing is stored. -/
def raiseRegfileOob (s : State) : State := s.withFault true

/-- `RawStore(i)` (R192). -/
def rawStore (i : Byte) (s : State) : State :=
  match s.cfg.rawStoreMode with
  | .none => s
  | .byte =>
    if i.toNat < regFileSize then s.regWrite i.toNat s.bus.record.lo else raiseRegfileOob s

/-- `Key(k)` (R195): an unknown code is ignored (R196). -/
def routeKey (payload : Byte) (s : State) : State :=
  match keyOf s.cfg payload with
  | some k => sendFrameBus ⟨(s.cfg.keyCode k).cmd, keyPressedQualifier⟩ s
  | none => s

/-- `VolumeSet(v)` (R197). -/
def volumeSet (v : BitVec 16) (s : State) : State :=
  if volumeSetMax < v.toNat then s
  else sendFrameBus ⟨s.cfg.mcSetVolume, v.extractLsb' 0 8⟩ s

/-- `Aux(v)` (R198). -/
def auxControl (v : BitVec 16) (s : State) : State :=
  if v = 0x0000 then s.withIndicator false
  else if v = 0x0001 then s.withIndicator true
  else s

/-- The router's action beyond the raw store, by index (R190). -/
def routeAction (i : Byte) (s : State) : State :=
  if i = regByte regKeyCmd then routeKey s.bus.record.hi s
  else if i = regByte s.cfg.regVolumeSet then volumeSet s.bus.record.data16 s
  else if i = regByte s.cfg.regAuxCtrl then auxControl s.bus.record.data16 s
  else s

/-- `Route(n)` (R190): the count is not used. An index above 15 is rejected before any effect (R191). -/
def route (s : State) : State :=
  if regIndexMax < s.bus.record.index.toNat then s
  else routeAction s.bus.record.index (rawStore s.bus.record.index s)

/-! ### The bus stimuli -/

/-- BADDRW (R170). -/
def busAddrW (s : State) : State := s.withBus { s.bus with rxCount := 0, state := .addrW }

/-- BADDRR (R174): the read starts at `rec[0]` as it stands. -/
def busAddrR (s : State) : State :=
  s.withBus { s.bus with
    startPosition := s.bus.record.index
    txPos := s.bus.record.index
    txCount := 0
    state := .addrR }

/-- Back to listening (R183). -/
def busIdle (s : State) : State := s.withBus { s.bus with state := .idle }

/-- `RecordComplete()` (R173): the router, then listening again. -/
def recordComplete (s : State) : State := busIdle (route s)

/-- The storing half of BWR: the byte goes to `rec[rx_count]` and is counted (R172). -/
def storeRecByte (b : Byte) (s : State) : State :=
  s.withBus { s.bus with
    record := s.bus.record.set s.bus.rxCount.toNat b
    rxCount := s.bus.rxCount + 1 }

/-- BWR b (R172): ACK for the first two bytes, NACK and the router for the third, NACK for a byte
outside a write (R171). -/
def busWrite (b : Byte) (s : State) : State :=
  if s.bus.state = .addrW then
    let t := storeRecByte b s
    if t.bus.rxCount.toNat < recBytes then t.logAck true else recordComplete (t.logAck false)
  else s.logAck false

/-- BRD (R175): the byte of `tx_pos`, or outside a read transaction a draw. -/
def busRead (s : State) : State :=
  if s.bus.state = .addrR then
    let t := (s.afterRegRead s.bus.txPos).logRead (s.regReadByte s.bus.txPos)
    t.withBus { t.bus with txPos := s.bus.txPos + 1, txCount := s.bus.txCount + 1 }
  else (s.withDraws (s.draws + 1)).logRead (Config.drawByte s.draws)

/-- An acknowledge failure while receiving, less its final `bus_state` write (R178, R177): the count is
recorded and, under `process_retained`, the partial record routed. -/
def partialRecord (s : State) : State :=
  let t := s.withBus { s.bus with lastRxCount := s.bus.rxCount }
  match s.cfg.partialRecordPolicy with
  | .processRetained => route t
  | .drop => t

/-- BSTOP p (R176): a stop during an incomplete record is abandoned (p = 0) or treated as an
acknowledge failure (p = 1), R177. -/
def busStop (p : Bool) (s : State) : State :=
  if s.bus.state = .addrW ∧ s.bus.rxCount.toNat < recBytes ∧ p = true then busIdle (partialRecord s)
  else busIdle s

/-- BAF (R178 while receiving, R179 while transmitting, R180 in Idle; `ERR_RECOVERY` never holds
between stimuli, R182, and BAF names no effect in it). -/
def busAckFail (s : State) : State :=
  match s.bus.state with
  | .addrW => busIdle (partialRecord s)
  | .addrR =>
    s.withBus { s.bus with lastTxCount := s.bus.txCount, txCount := 0, state := .idle }
  | .idle => s
  | .errRecovery => s

/-- Entering error recovery (R181). -/
def enterRecovery (s : State) : State := s.withBus { s.bus with state := .errRecovery }

/-- BERR (R181): recovery is entered and left in one step (R182). -/
def busError (s : State) : State :=
  let t := enterRecovery s
  busIdle (t.withBus { t.bus with record := Record.zero, rxCount := 0, txCount := 0 })

/-- The bus transaction of a whole write record: BADDRW and three BWR (30_encoding.md R87, R92). -/
def busRecord (i lo hi : Byte) (s : State) : State :=
  busWrite hi (busWrite lo (busWrite i (busAddrW s)))

/-! ### Meanings of the bus stimuli -/

/-- The meaning of BADDRW. -/
def execBaddrw (s : State) : Result := .next (busAddrW s)

/-- The meaning of BADDRR. -/
def execBaddrr (s : State) : Result := .next (busAddrR s)

/-- The meaning of BWR. -/
def execBwr (b : Byte) (s : State) : Result := .next (busWrite b s)

/-- The meaning of BRD. -/
def execBrd (s : State) : Result := .next (busRead s)

/-- The meaning of BSTOP. -/
def execBstop (p : Bool) (s : State) : Result := .next (busStop p s)

/-- The meaning of BAF. -/
def execBaf (s : State) : Result := .next (busAckFail s)

/-- The meaning of BERR. -/
def execBerr (s : State) : Result := .next (busError s)

end Sys2Proof.Machine
end

