-- ==== Sys2Proof/Machine/Environment.lean ====
section
/-! DEFINITION. Environment.lean: the environment's stimuli that touch one element each: RXB
(40_serial_link.md R110), POST and SCAN (42_mode_fsm.md R258, R259), TXDROP (30_encoding.md R95), the
illegal word (R97), the input in no format, RESET (70_reset_and_hazards.md R300). -/

namespace Sys2Proof.Machine

/-- RXB b (R110): queued, or lost where the FIFO is full. -/
def receiveByte (b : Byte) (s : State) : State :=
  if s.sync.rxFifo.length < s.cfg.rxFifoDepth then
    s.withSync { s.sync with rxFifo := s.sync.rxFifo ++ [b] }
  else s

/-- RXB for each byte in turn. -/
def receiveBytes (bs : List Byte) (s : State) : State := bs.foldl (fun t b => receiveByte b t) s

/-- SCAN b (R259). -/
def setScan (b : Bool) (s : State) : State := s.withFsm { s.fsm with scanInProgress := b }

/-- TXDROP n (R95). -/
def setTxDrop (n : Byte) (s : State) : State := s.withIo { s.io with envTxDrop := n.toNat }

/-- An illegal word sets the sticky mark and nothing else (R97). -/
def markRefused (s : State) : State := s.withRefused true

/-- An input that is no stimulus, no record and no status frame (entry 15). Bytes that are no frame
arrive on SER_IN like any others, and the synchronizer judges them (40_serial_link.md R110 to R115);
every other one is not taken, and the mark is set, as for an illegal word (R97,
93_implementation_defined.md I14). -/
def strayInput (x : Wire) (s : State) : State :=
  match x with
  | .status bs => receiveBytes bs s
  | .stim _ => markRefused s
  | .record _ => markRefused s
  | .cmd _ => markRefused s
  | .unknown _ _ => markRefused s

/-- RESET (R300): every FSLINK element takes its value of R301; the configuration, the histories, the
script counter and the environment's own store are not FSLINK's and stay (10_state.md R48). -/
def resetBlock (s : State) : State :=
  { State.resetOf s.cfg with io := s.io, input := s.input, draws := s.draws, scripted := s.scripted }

/-- The meaning of RXB. -/
def execRxb (b : Byte) (s : State) : Result := .next (receiveByte b s)

/-- The meaning of POST e (42_mode_fsm.md R258). -/
def execPost (e : Byte) (s : State) : Result := .next (postEvent e s)

/-- The meaning of SCAN. -/
def execScan (b : Bool) (s : State) : Result := .next (setScan b s)

/-- The meaning of TXDROP. -/
def execTxdrop (n : Byte) (s : State) : Result := .next (setTxDrop n s)

/-- The meaning of a word R90 does not assign: refused at the block's boundary, the run goes on. -/
def execIllegal (_w : StimWord) (s : State) : Result := .next (markRefused s)

/-- The meaning of RESET. -/
def execReset (s : State) : Result := .next (resetBlock s)

/-! ### POST by event code (30_encoding.md R96) -/

/-- The meaning of POST EV_NONE: the slot is emptied (42_mode_fsm.md R211). -/
def execPostNone (s : State) : Result := .next (postEvent evNone s)

/-- The meaning of POST EV_VOL_UP. -/
def execPostVolUp (s : State) : Result := .next (postEvent evVolUp s)

/-- The meaning of POST EV_VOL_DOWN. -/
def execPostVolDown (s : State) : Result := .next (postEvent evVolDown s)

/-- The meaning of POST EV_MODE_TOGGLE. -/
def execPostModeToggle (s : State) : Result := .next (postEvent evModeToggle s)

/-- The meaning of POST EV_SET_MODE_FROM_MODULE. -/
def execPostSetModeFromModule (s : State) : Result := .next (postEvent evSetModeFromModule s)

/-- The meaning of POST EV_POWER. -/
def execPostPower (s : State) : Result := .next (postEvent evPower s)

/-- The meaning of POST EV_FACTORY_RESET. -/
def execPostFactoryReset (s : State) : Result := .next (postEvent evFactoryReset s)

/-- The meaning of POST EV_MODULE_VOLUME_SET. -/
def execPostModuleVolumeSet (s : State) : Result := .next (postEvent evModuleVolumeSet s)

/-- The meaning of POST with a code 0x08 to 0xFF: the slot is written; the dispatcher later clears it
unread (42_mode_fsm.md R214). -/
def execPostOther (e : Byte) (s : State) : Result := .next (postEvent e s)

end Sys2Proof.Machine
end

