-- ==== Sys2Proof/Machine/Time.lean ====
section
/-! DEFINITION. Time.lean: the tick stimuli (40_serial_link.md R150 to R152). -/

namespace Sys2Proof.Machine

/-- `now <- now +_TICK_BITS ms`: the one writer of `now` but RESET (R152). -/
def advance (ms : Nat) (s : State) : State := s.withNow (wrapTick s.cfg (s.now + ms))

/-- TICK n (R150). -/
def tickBy (n : Byte) (s : State) : State := advance n.toNat s

/-- TICK100 n (R151). -/
def tick100By (n : Byte) (s : State) : State := advance (100 * n.toNat) s

/-- The meaning of TICK. -/
def execTick (n : Byte) (s : State) : Result := .next (tickBy n s)

/-- The meaning of TICK100. -/
def execTick100 (n : Byte) (s : State) : Result := .next (tick100By n s)

end Sys2Proof.Machine
end

