-- ==== Sys2Proof/Machine/Interrupt.lean ====
section
/-! DEFINITION. Interrupt.lean: the interrupt point (20_memory.md R71, 60_exceptions.md R284, R285):
at each IP of a POLL the next entry of the schedule is run, whole stimuli in order, and the POLL goes
on with the state they left; nothing is saved and nothing restored. The poll agent's SendFrame has one
before each byte (40_serial_link.md R121). -/

namespace Sys2Proof.Machine

/-- One whole stimulus of the bus agent or the environment. -/
def runIpStim (i : IpStim) (s : State) : State :=
  match i with
  | .tick n => tickBy n s
  | .tick100 n => tick100By n s
  | .rxb b => receiveByte b s
  | .post e => postEvent e s
  | .scan b => setScan b s
  | .txdrop n => setTxDrop n s
  | .baddrw => busAddrW s
  | .baddrr => busAddrR s
  | .bwr b => busWrite b s
  | .brd => busRead s
  | .bstop p => busStop p s
  | .baf => busAckFail s
  | .berr => busError s

/-- Several stimuli, one after another. -/
def runIpStims (is : List IpStim) (s : State) : State := is.foldl (fun t i => runIpStim i t) s

/-- `IP`: the stimuli scheduled for this point are taken; none where the schedule is used up. -/
def interruptPoint (s : State) : State :=
  match s.input.ipSched with
  | [] => s
  | is :: rest => runIpStims is (s.withInput { s.input with ipSched := rest })

/-- `IP; Emit(b)` for each byte. -/
def emitAllPoll (bs : List Byte) (s : State) : State :=
  bs.foldl (fun t b => emit b (interruptPoint t)) s

/-- `SendFrame(c, d)` in the poll agent: an interrupt point before each byte (R121). -/
def sendFramePoll (p : CmdPair) (s : State) : State := emitAllPoll (frameBytes p) s

/-- `IP; reg[i] <- v`: a register-file write of the poll agent (20_memory.md R71). -/
def regWritePoll (i : Fin 12) (v : Byte) (s : State) : State := (interruptPoint s).regWrite i.val v

end Sys2Proof.Machine
end

