-- ==== Sys2Proof/Machine/CompanionLink.lean ====
section
/-! DEFINITION. CompanionLink.lean: the byte stream synchronizer (40_serial_link.md R111 to R119) and
the companion link (R129 to R137). -/

namespace Sys2Proof.Machine

/-! ### The synchronizer -/

/-- Frame completion (R117): the payload becomes the current snapshot, the link is ready, the scan
starts anew. -/
def frameComplete (s : State) : State :=
  let t := s.withLink { s.link with
    cur := s.link.cur.copyFirst s.sync.buf s.sync.len.toNat
    ready := true }
  t.withSync { t.sync with state := .awaitM1, count := 0 }

/-- The end of R114 and R115: complete when `sync_count = sync_len + 1`. -/
def syncFinish (s : State) : Bool × State :=
  if s.sync.count = s.sync.len + 1 then (true, frameComplete s) else (false, s)

/-- R112: waiting for the first magic byte. -/
def syncAwaitM1 (b : Byte) (s : State) : State :=
  if b = magic0 then s.withSync { s.sync with state := .awaitM2 } else s

/-- R113 in AWAIT_M2: a mismatch stays, a first magic byte restarts the sequence. -/
def syncAwaitM2 (b : Byte) (s : State) : State :=
  if b = magic1 then s.withSync { s.sync with state := .awaitM3 }
  else if b = magic0 then s.withSync { s.sync with state := .awaitM2 }
  else s

/-- R113 in AWAIT_M3. -/
def syncAwaitM3 (b : Byte) (s : State) : State :=
  if b = magic2 then s.withSync { s.sync with state := .collect, count := 0 }
  else if b = magic0 then s.withSync { s.sync with state := .awaitM2 }
  else s

/-- R114: the length byte. -/
def syncLength (b : Byte) (s : State) : Bool × State :=
  if statusMaxLen < b.toNat then (false, s.withSync { s.sync with state := .awaitM1, count := 0 })
  else syncFinish (s.withSync { s.sync with len := b.extractLsb' 0 3, count := 1 })

/-- R115: a payload byte. -/
def syncPayload (b : Byte) (s : State) : Bool × State :=
  syncFinish (s.withSync { s.sync with
    buf := s.sync.buf.set (s.sync.count.toNat - 1) b
    count := s.sync.count + 1 })

/-- `SyncByte(b)` (R111): whether a frame completed, and the state after. -/
def syncByte (b : Byte) (s : State) : Bool × State :=
  match s.sync.state with
  | .awaitM1 => (false, syncAwaitM1 b s)
  | .awaitM2 => (false, syncAwaitM2 b s)
  | .awaitM3 => (false, syncAwaitM3 b s)
  | .collect => if s.sync.count = 0 then syncLength b s else syncPayload b s

/-- `rx_fifo <- l` (R116's dequeue leaves the rest). -/
def setFifo (l : List Byte) (s : State) : State := s.withSync { s.sync with rxFifo := l }

/-- The loop of `SyncCall` (R116), `tCall` its local start time. Each pass runs one interrupt point
and takes at most one byte; the fuel bounds the passes (entry 17). -/
def syncLoop (tCall : Nat) : Nat → State → Bool × State
  | 0, s => (false, s)
  | fuel + 1, s =>
    let t := interruptPoint s
    match t.sync.rxFifo with
    | [] => (false, t)
    | b :: rest =>
      if syncGuardMs ≤ tickSub t.cfg t.now tCall then (false, t)
      else
        let r := syncByte b (setFifo rest t)
        if r.1 then (true, r.2) else syncLoop tCall fuel r.2

/-- How many passes a SyncCall can make: every byte queued now or by a scheduled stimulus, and the
pass that finds none. -/
def syncFuel (s : State) : Nat := s.sync.rxFifo.length + s.input.ipSched.flatten.length + 1

/-- `SyncCall()` (R116). -/
def syncCall (s : State) : Bool × State := syncLoop s.now (syncFuel s) s

/-! ### The companion link -/

/-- The status request and its timer: `Arm(t_req); SendFrame(MC_STATUS_REQ)` (R130). -/
def issueStatusReq (s : State) : State :=
  sendFramePoll s.cfg.mcStatusReq (s.withLink { s.link with tReq := Timer.arm s.now })

/-- `StatusRequestCheck()` (R130). -/
def statusRequestCheck (s : State) : State :=
  if expired s.cfg s.now s.link.tReq s.cfg.statusReqIntervalMs then issueStatusReq s else s

/-- `React(0)` (R132): the wifi/bt mirror. -/
def react0 (s : State) : State :=
  let t := regWritePoll s.cfg.regWifiBt s.link.cur.b0 s
  t.withLink { t.link with prev := { t.link.prev with b0 := t.link.cur.b0 } }

/-- The condition of R133's event: the mode sub-field changed, the flag is set, the module is not in
wifi setup. -/
def modeEventDue (s : State) : Bool :=
  decide (modeNibOf s.cfg s.link.cur.b1 ≠ modeNibOf s.cfg s.link.prev.b1)
    && s.cfg.fsControlModeFromModule && !inWifiSetup s.cfg s.link.cur

/-- `React(1)` (R133): the mode and spotify mirrors, and the module's mode event. -/
def react1 (s : State) : State :=
  let t := regWritePoll s.cfg.regMode ((modeNibOf s.cfg s.link.cur.b1).zeroExtend 8) s
  let u := regWritePoll t.cfg.regSpotify ((spotifyNibOf t.cfg t.link.cur.b1).zeroExtend 8) t
  let v := if modeEventDue u then postEvent evSetModeFromModule u else u
  v.withLink { v.link with prev := { v.link.prev with b1 := v.link.cur.b1 } }

/-- The reported volume is applied, and its event posted unless one is in flight (R134). -/
def applyModuleVolume (vol : BitVec 7) (s : State) : State :=
  let t := s.withFsm { s.fsm with volume := vol }
  if t.link.volInFlight then t
  else
    let u := postEvent evModuleVolumeSet t
    u.withLink { u.link with volInFlight := true }

/-- `React(2)` (R134): the volume mirror; outside the echo window, the volume and its event. -/
def react2 (s : State) : State :=
  let vol := volOf s.link.cur.b2
  let t := regWritePoll s.cfg.regVolumeMute (convert (muteOf s.link.cur.b2) vol) s
  let u := if running t.cfg t.now t.link.tEcho t.cfg.volEchoMs then t else applyModuleVolume vol t
  u.withLink { u.link with prev := { u.link.prev with b2 := u.link.cur.b2 } }

/-- `React(3)` (R135): the error mirror. -/
def react3 (s : State) : State :=
  let t := regWritePoll s.cfg.regError s.link.cur.b3 s
  t.withLink { t.link with prev := { t.link.prev with b3 := t.link.cur.b3 } }

/-- `Diff()` (R131): the first differing byte is acted on, the others wait. -/
def diff (s : State) : State :=
  if s.link.cur.b0 ≠ s.link.prev.b0 then react0 s
  else if s.link.cur.b1 ≠ s.link.prev.b1 then react1 s
  else if s.link.cur.b2 ≠ s.link.prev.b2 then react2 s
  else if s.link.cur.b3 ≠ s.link.prev.b3 then react3 s
  else s

/-- `LinkStep()` (R129). -/
def linkStep (s : State) : State :=
  let r := syncCall (statusRequestCheck s)
  if r.1 then diff r.2 else r.2

end Sys2Proof.Machine
end

