-- ==== Sys2Proof/Machine/ModeMachine.lean ====
section
/-! DEFINITION. ModeMachine.lean: the mode state machine (42_mode_fsm.md): the shared helpers (R215 to
R226), the mode functions (R219, R227 to R250), the tail routine (R253 to R257), the dispatcher (R212)
and the meaning of POLL (R210). Everything runs in the poll agent. -/

namespace Sys2Proof.Machine

/-! ### Small writes of the mode machine -/

/-- `task[m] <- v`. -/
def setTask (m : Mode) (v : TaskState) (s : State) : State :=
  s.withFsm { s.fsm with tasks := s.fsm.tasks.set m v }

/-- `from_module <- v`. -/
def setFromModule (v : Bool) (s : State) : State := s.withFsm { s.fsm with fromModule := v }

/-- `next_mode <- m`. -/
def setNextMode (m : Mode) (s : State) : State := s.withFsm { s.fsm with nextMode := m }

/-- `prev_mode <- m`. -/
def setPrevMode (m : Mode) (s : State) : State := s.withFsm { s.fsm with prevMode := m }

/-- `Arm(t_block)` (R226). -/
def armBlock (s : State) : State := s.withFsm { s.fsm with tBlock := Timer.arm s.now }

/-- `Disarm(t_grace)`. -/
def disarmGrace (s : State) : State := s.withFsm { s.fsm with tGrace := s.fsm.tGrace.disarm }

/-! ### Mode changes (R216, R217) -/

/-- `RequestMode(t)` (R216): from Init, Run or Pause of the current mode. -/
def requestMode (t : Mode) (s : State) : State :=
  if taskActive (s.fsm.tasks.get s.fsm.mode) then setTask s.fsm.mode .stop (setNextMode t s) else s

/-- The common Stop handler (R217). -/
def stopCommon (s : State) : State :=
  s.withFsm { s.fsm with tasks := s.fsm.tasks.set s.fsm.mode .idle, mode := s.fsm.nextMode }

/-! ### The commands the mode machine issues (30_encoding.md R94)

Each is its frame and what its rule writes with the send. -/

/-- FC_BT and the blocking timer (R231, R226). -/
def issueBt (s : State) : State := armBlock (sendFramePoll s.cfg.fcBt s)

/-- FC_SPOTIFY and the blocking timer (R233, R226). -/
def issueSpotify (s : State) : State := armBlock (sendFramePoll s.cfg.fcSpotify s)

/-- FC_SWITCH_SPOTIFY and the blocking timer (R240, R226). -/
def issueSwitchSpotify (s : State) : State := armBlock (sendFramePoll s.cfg.fcSwitchSpotify s)

/-- FC_STANDBY and the blocking timer (R248, R226). -/
def issueStandby (s : State) : State := armBlock (sendFramePoll s.cfg.fcStandby s)

/-- FC_FACTORY_RESET; the readiness is lost so that it can be awaited (R243). -/
def issueFactoryReset (s : State) : State :=
  let t := sendFramePoll s.cfg.fcFactoryReset s
  t.withLink { t.link with ready := false }

/-- FC_UNMUTE (R246). -/
def issueUnmute (s : State) : State := sendFramePoll s.cfg.fcUnmute s

/-- `Arm(t_echo)` (R254). -/
def armEcho (s : State) : State := s.withLink { s.link with tEcho := Timer.arm s.now }

/-- FC_VOL_UP and the echo window (R254). -/
def issueVolUp (s : State) : State := armEcho (sendFramePoll s.cfg.fcVolUp s)

/-- FC_VOL_DOWN and the echo window (R254). -/
def issueVolDown (s : State) : State := armEcho (sendFramePoll s.cfg.fcVolDown s)

/-! ### Shared event handlers (R220 to R225) -/

/-- `ToggleTarget(m)` (R221). -/
def toggleTarget (c : Cfg) (cur : Quad) (m : Mode) : Option Mode :=
  match m with
  | .bluetoothA2DP => some .spotifyConnect
  | .spotifyConnect => some .bluetoothA2DP
  | .networkConfig => some (if wifiConnected c cur then .spotifyConnect else .bluetoothA2DP)
  | .factoryReset => some .spotifyConnect
  | .idle => none
  | .standby => none
  | .booting => none

/-- An accepted toggle to mode `t` (R222). -/
def acceptToggle (t : Mode) (s : State) : State :=
  requestMode t (setFromModule false (s.withFsm { s.fsm with tDebounce := Timer.arm s.now }))

/-- `Toggle()` (R222): vetoed by a scan, debounced, else accepted. -/
def toggle (s : State) : State :=
  if s.fsm.scanInProgress then s
  else if expired s.cfg s.now s.fsm.tDebounce s.cfg.debounceMs then
    match toggleTarget s.cfg s.link.cur s.fsm.mode with
    | none => s
    | some t => acceptToggle t s
  else s

/-- An accepted module mode event for mode `t` (R224). -/
def acceptModuleMode (t : Mode) (s : State) : State :=
  requestMode t (setFromModule true (if t = .standby then setPrevMode s.fsm.mode s else s))

/-- `ModuleMode()` (R224). -/
def moduleMode (s : State) : State :=
  if expired s.cfg s.now s.fsm.tBlock s.cfg.blockMs then
    match moduleModeOf s.cfg (modeNibOf s.cfg s.link.cur.b1) with
    | none => s
    | some t => if t = s.fsm.mode then s else acceptModuleMode t s
  else s

/-- `Power()` (R225). -/
def power (s : State) : State :=
  requestMode .standby (setFromModule false (setPrevMode s.fsm.mode s))

/-- `RunEvents(ev)` (R220). -/
def runEvents (ev : Byte) (s : State) : State :=
  if ev = evModeToggle then toggle s
  else if ev = evSetModeFromModule then moduleMode s
  else if ev = evPower then power s
  else s

/-! ### Booting (R227 to R230) -/

/-- Booting/Idle (R227): wait for the link. -/
def bootIdle (s : State) : State := if s.link.ready then setTask .booting .init s else s

/-- Booting/Init (R227): the settle timer. -/
def bootInit (s : State) : State :=
  let t := setFromModule false s
  setTask .booting .run (t.withFsm { t.fsm with tBoot := Timer.arm t.now })

/-- Booting/Run (R229): the startup mode is selected once the settle period is over. -/
def bootRun (s : State) : State :=
  if s.cfg.bootSettleMs ≤ elapsed s.cfg s.now s.fsm.tBoot then
    setTask .booting .stop (setNextMode (bootRuleOf s.cfg s.link.cur) s)
  else s

/-- `reg[REG_BOOT_FLAGS] <- reg[REG_BOOT_FLAGS] | (1 << BOOT_READY_BIT)`, after its interrupt point
(R229): read and write with none between (60_exceptions.md R286). -/
def setBootReady (s : State) : State :=
  let t := interruptPoint s
  t.regWrite t.cfg.regBootFlags.val
    (t.mem.read t.cfg.regBootFlags.val ||| BitVec.twoPow 8 t.cfg.bootReadyBit.val)

/-- Booting/Stop (R229). -/
def bootStop (s : State) : State :=
  let t := setBootReady s
  stopCommon (t.withFsm { t.fsm with tBoot := t.fsm.tBoot.disarm })

/-- The Booting mode function. Booting never enters Pause (R215). -/
def bootingFunction (s : State) : State :=
  match s.fsm.tasks.booting with
  | .idle => bootIdle s
  | .init => bootInit s
  | .run => bootRun s
  | .pause => s
  | .stop => bootStop s

/-! ### BluetoothA2DP (R231, R232) -/

/-- BT/Init (R231): the command, unless the module itself announced the mode. -/
def btInit (s : State) : State :=
  setTask .bluetoothA2DP .run (if s.fsm.fromModule then setFromModule false s else issueBt s)

/-- The BluetoothA2DP mode function (R232; no Pause). -/
def btFunction (ev : Byte) (s : State) : State :=
  match s.fsm.tasks.bluetoothA2DP with
  | .idle => setTask .bluetoothA2DP .init s
  | .init => btInit s
  | .run => runEvents ev s
  | .pause => s
  | .stop => stopCommon s

/-! ### SpotifyConnect (R233 to R236) -/

/-- Spotify/Init (R233). -/
def spotifyInit (s : State) : State :=
  setTask .spotifyConnect .run
    (disarmGrace (if s.fsm.fromModule then setFromModule false s else issueSpotify s))

/-- `Grace()` (R235). -/
def grace (s : State) : State :=
  if wifiConnected s.cfg s.link.cur then disarmGrace s
  else if s.fsm.tGrace.armed then
    if s.cfg.spotifyGraceMs ≤ elapsed s.cfg s.now s.fsm.tGrace then
      requestMode .networkConfig (setFromModule false (disarmGrace s))
    else s
  else s.withFsm { s.fsm with tGrace := Timer.arm s.now }

/-- Spotify/Run (R234): the tick's event is not handled where Grace requested a mode. -/
def spotifyRun (ev : Byte) (s : State) : State :=
  let t := grace s
  if t.fsm.tasks.spotifyConnect = .run then runEvents ev t else t

/-- The SpotifyConnect mode function (R236 at Stop; no Pause). -/
def spotifyFunction (ev : Byte) (s : State) : State :=
  match s.fsm.tasks.spotifyConnect with
  | .idle => setTask .spotifyConnect .init s
  | .init => spotifyInit s
  | .run => spotifyRun ev s
  | .pause => s
  | .stop => stopCommon (disarmGrace s)

/-! ### NetworkConfig (R237 to R242) -/

/-- `netcfg_disc_latch <- v`. -/
def setDiscLatch (v : Bool) (s : State) : State := s.withFsm { s.fsm with netcfgDiscLatch := v }

/-- NetCfg/Init (R238). -/
def netcfgInit (s : State) : State :=
  setTask .networkConfig .run (setDiscLatch false (setFromModule false s))

/-- `SwitchWhenOffline()` (R240): once per disconnection. -/
def switchWhenOffline (s : State) : State :=
  let d := wifiDisconnected s.cfg s.link.cur
  setDiscLatch d (if d && !s.fsm.netcfgDiscLatch then issueSwitchSpotify s else s)

/-- NetCfg/Run (R239). -/
def netcfgRun (ev : Byte) (s : State) : State :=
  if reconnErr s.cfg s.link.cur then setTask .networkConfig .pause s
  else runEvents ev (switchWhenOffline s)

/-- NetCfg/Pause (R241). -/
def netcfgPause (s : State) : State :=
  if reconnErr s.cfg s.link.cur then s else setTask .networkConfig .run s

/-- The NetworkConfig mode function (R237, R242 at Stop). -/
def netcfgFunction (ev : Byte) (s : State) : State :=
  match s.fsm.tasks.networkConfig with
  | .idle => setTask .networkConfig .init s
  | .init => netcfgInit s
  | .run => netcfgRun ev s
  | .pause => netcfgPause s
  | .stop => stopCommon (setDiscLatch false s)

/-! ### FactoryReset (R243 to R246) -/

/-- FR/Init (R243). -/
def factoryInit (s : State) : State :=
  setTask .factoryReset .run (issueFactoryReset (setFromModule false s))

/-- FR/Run (R245): done when a frame has come and the module's factory bit is clear. -/
def factoryRun (ev : Byte) (s : State) : State :=
  if s.link.ready && !factoryBusy s.cfg s.link.cur then
    setTask .factoryReset .stop (setNextMode s.cfg.defaultMode s)
  else if ev = evModeToggle then toggle s
  else s

/-- FR/Stop (R246). -/
def factoryStop (s : State) : State :=
  let t := issueUnmute (s.withFsm { s.fsm with volume := s.cfg.defaultVolume })
  stopCommon (t.withFsm { t.fsm with factoryInProgress := false })

/-- The FactoryReset mode function (no Pause). -/
def factoryFunction (ev : Byte) (s : State) : State :=
  match s.fsm.tasks.factoryReset with
  | .idle => setTask .factoryReset .init s
  | .init => factoryInit s
  | .run => factoryRun ev s
  | .pause => s
  | .stop => factoryStop s

/-! ### Standby (R247 to R250) -/

/-- Standby/Init (R248): the command is sent even when the module announced standby. -/
def standbyInit (s : State) : State :=
  setTask .standby .run (issueStandby (setFromModule false s))

/-- Standby/Run (R249): only Power is read. -/
def standbyRun (ev : Byte) (s : State) : State := if ev = evPower then setTask .standby .stop s else s

/-- Standby/Stop (R250). -/
def standbyStop (s : State) : State :=
  stopCommon (setNextMode
    (if inWifiSetup s.cfg s.link.cur then .networkConfig else s.fsm.prevMode) s)

/-- The Standby mode function (no Pause). -/
def standbyFunction (ev : Byte) (s : State) : State :=
  match s.fsm.tasks.standby with
  | .idle => setTask .standby .init s
  | .init => standbyInit s
  | .run => standbyRun ev s
  | .pause => s
  | .stop => standbyStop s

/-! ### The dispatch table (R213) -/

/-- `ModeFunction(m, ev)`. The Idle mode is inert (R219). -/
def modeFunction (m : Mode) (ev : Byte) (s : State) : State :=
  match m with
  | .idle => s
  | .standby => standbyFunction ev s
  | .booting => bootingFunction s
  | .bluetoothA2DP => btFunction ev s
  | .spotifyConnect => spotifyFunction ev s
  | .factoryReset => factoryFunction ev s
  | .networkConfig => netcfgFunction ev s

/-! ### The tail routine (R253 to R257) -/

/-- The acknowledgment of a module volume change (R256). -/
def ackModuleVolume (ev : Byte) (s : State) : State :=
  if ev = evModuleVolumeSet then s.withLink { s.link with volInFlight := false } else s

/-- `FactoryTrigger()` (R255). -/
def factoryTrigger (s : State) : State :=
  if s.fsm.factoryInProgress then s
  else if taskActive (s.fsm.tasks.get s.fsm.mode) then
    requestMode .factoryReset
      (setFromModule false (s.withFsm { s.fsm with factoryInProgress := true }))
  else s

/-- `DiagCount()` (R257). -/
def diagCount (s : State) : State :=
  let t := s.withFsm { s.fsm with diagCounter := s.fsm.diagCounter + 1 }
  if t.cfg.configDiagCounter then regWritePoll t.cfg.regAuxDiag t.fsm.diagCounter t else t

/-- The tail's event actions, skipped in Standby (R253, R254). -/
def tailEvents (ev : Byte) (s : State) : State :=
  if ev = evVolUp then issueVolUp s
  else if ev = evVolDown then issueVolDown s
  else if ev = evFactoryReset then factoryTrigger s
  else s

/-- `Tail(m0, ev)` (R253). -/
def tail (m0 : Mode) (ev : Byte) (s : State) : State :=
  let t := ackModuleVolume ev s
  diagCount (if m0 = .standby then t else tailEvents ev t)

/-! ### POLL -/

/-- The slot is cleared, after an interrupt point (R212, R214). -/
def clearEvent (s : State) : State := postEvent evNone (interruptPoint s)

/-- `Dispatch()` (R212): the event and the mode are latched first. -/
def dispatch (s : State) : State :=
  clearEvent (tail s.fsm.mode s.fsm.event (modeFunction s.fsm.mode s.fsm.event s))

/-- POLL (R210): the link, an interrupt point, the mode machine. -/
def pollOnce (s : State) : State := dispatch (interruptPoint (linkStep s))

/-- The meaning of POLL. -/
def execPoll (s : State) : Result := .next (pollOnce s)

end Sys2Proof.Machine
end

