-- ==== Sys2Proof/Machine/Frames.lean ====
section
/-! DEFINITION. Frames.lean: the frame rows. STATUS_FRAME (30_encoding.md R82): its bytes arrive on
SER_IN, to be recognised by a later POLL (40_serial_link.md R111 to R117; entry 13). CMD_FRAME (R80):
the encoder sends the frame (R121). The MC_ and FC_ rows (R94): FSLINK issues that command: its frame,
and what the command's rule writes with the send (entry 14). -/

namespace Sys2Proof.Machine

/-- The meaning of STATUS_FRAME. -/
def execStatusFrame (payload : List Byte) (s : State) : Result :=
  .next (receiveBytes (statusBytes payload) s)

/-- The meaning of CMD_FRAME: `SendFrame(c, d)` in the poll agent. -/
def execCmdFrame (c d : Byte) (s : State) : Result := .next (sendFramePoll ⟨c, d⟩ s)

/-- The meaning of MC_STATUS_REQ (40_serial_link.md R130). -/
def execMcStatusReq (s : State) : Result := .next (issueStatusReq s)

/-- The meaning of MC_SET_VOLUME (41_register_bus.md R197): the router's send, in the bus agent. -/
def execMcSetVolume (v : Byte) (s : State) : Result := .next (volumeSet (v.zeroExtend 16) s)

/-- The meaning of FC_UNMUTE (42_mode_fsm.md R246). -/
def execFcUnmute (s : State) : Result := .next (issueUnmute s)

/-- The meaning of FC_SPOTIFY (R233). -/
def execFcSpotify (s : State) : Result := .next (issueSpotify s)

/-- The meaning of FC_SWITCH_SPOTIFY (R240). -/
def execFcSwitchSpotify (s : State) : Result := .next (issueSwitchSpotify s)

/-- The meaning of FC_BT (R231). -/
def execFcBt (s : State) : Result := .next (issueBt s)

/-- The meaning of FC_VOL_UP (R254). -/
def execFcVolUp (s : State) : Result := .next (issueVolUp s)

/-- The meaning of FC_VOL_DOWN (R254). -/
def execFcVolDown (s : State) : Result := .next (issueVolDown s)

/-- The meaning of FC_FACTORY_RESET (R243). -/
def execFcFactoryReset (s : State) : Result := .next (issueFactoryReset s)

/-- The meaning of FC_STANDBY (R248). -/
def execFcStandby (s : State) : Result := .next (issueStandby s)

end Sys2Proof.Machine
end

