-- ==== Sys2Proof/Machine/Records.lean ====
section
/-! DEFINITION. Records.lean: the write-record rows (30_encoding.md R87; 41_register_bus.md R190 to
R199): the bus master writes the record's three bytes, and the router runs inside the stimulus of the
third (entry 13). The six REC_ rows are the records by what the router does with them, the eleven
KEY_CMD_ rows the key records (30_encoding.md R93), whose payload byte is the configuration's. -/

namespace Sys2Proof.Machine

/-- The record of a key: index REG_KEY_CMD, the key's payload in the high data byte (R88, R93). -/
def keyRecord (k : Key) (lo : Byte) (s : State) : State :=
  busRecord (regByte regKeyCmd) lo (s.cfg.keyCode k).payload s

/-- The meaning of WRITE_RECORD. -/
def execWriteRecord (i lo hi : Byte) (s : State) : Result := .next (busRecord i lo hi s)

/-- The meaning of REC_REJECT (R191): a record with an index above 15. -/
def execRecReject (i lo hi : Byte) (s : State) : Result := .next (busRecord i lo hi s)

/-- The meaning of REC_RAW_STORE (R192): a record with an index that holds storage. -/
def execRecRawStore (i lo hi : Byte) (s : State) : Result := .next (busRecord i lo hi s)

/-- The meaning of REC_OOB (R193): a record with an index 12 to 15. -/
def execRecOob (i lo hi : Byte) (s : State) : Result := .next (busRecord i lo hi s)

/-- The meaning of REC_KEY_CMD (R195): a record to the key-command register. -/
def execRecKeyCmd (lo hi : Byte) (s : State) : Result := .next (busRecord (regByte regKeyCmd) lo hi s)

/-- The meaning of REC_AUX_CTRL (R198): a record to the auxiliary register. -/
def execRecAuxCtrl (lo hi : Byte) (s : State) : Result :=
  .next (busRecord (regByte s.cfg.regAuxCtrl) lo hi s)

/-- The meaning of REC_VOLUME_SET (R197): a record to the volume-set register. -/
def execRecVolumeSet (lo hi : Byte) (s : State) : Result :=
  .next (busRecord (regByte s.cfg.regVolumeSet) lo hi s)

/-- The meaning of KEY_CMD_MUTE (R195). -/
def execKeyMute (lo : Byte) (s : State) : Result := .next (keyRecord .mute lo s)

/-- The meaning of KEY_CMD_UNMUTE. -/
def execKeyUnmute (lo : Byte) (s : State) : Result := .next (keyRecord .unmute lo s)

/-- The meaning of KEY_CMD_SPOTIFY_MODE. -/
def execKeySpotifyMode (lo : Byte) (s : State) : Result := .next (keyRecord .spotifyMode lo s)

/-- The meaning of KEY_CMD_BT_MODE. -/
def execKeyBtMode (lo : Byte) (s : State) : Result := .next (keyRecord .btMode lo s)

/-- The meaning of KEY_CMD_VOL_UP. -/
def execKeyVolUp (lo : Byte) (s : State) : Result := .next (keyRecord .volUp lo s)

/-- The meaning of KEY_CMD_VOL_DOWN. -/
def execKeyVolDown (lo : Byte) (s : State) : Result := .next (keyRecord .volDown lo s)

/-- The meaning of KEY_CMD_PLAY_PAUSE. -/
def execKeyPlayPause (lo : Byte) (s : State) : Result := .next (keyRecord .playPause lo s)

/-- The meaning of KEY_CMD_NEXT. -/
def execKeyNext (lo : Byte) (s : State) : Result := .next (keyRecord .next lo s)

/-- The meaning of KEY_CMD_PREV. -/
def execKeyPrev (lo : Byte) (s : State) : Result := .next (keyRecord .prev lo s)

/-- The meaning of KEY_CMD_RESET_NETWORK. -/
def execKeyResetNetwork (lo : Byte) (s : State) : Result := .next (keyRecord .resetNetwork lo s)

/-- The meaning of KEY_CMD_FACTORY_RESET. -/
def execKeyFactoryReset (lo : Byte) (s : State) : Result := .next (keyRecord .factoryReset lo s)

end Sys2Proof.Machine
end

