-- ==== Sys2Proof/Machine/Script.lean ====
section
/-! DEFINITION. Script.lean: the script lines of 30_encoding.md R92: each is its expansion, stimulus
by stimulus, with nothing between (R91; entry 12). -/

namespace Sys2Proof.Machine

/-- BRD n times. -/
def busReads : Nat → State → State
  | 0, s => s
  | n + 1, s => busReads n (busRead s)

/-- The meaning of RXSEQ: RXB for each byte. -/
def execRxseq (bs : List Byte) (s : State) : Result := .next (receiveBytes bs s)

/-- The meaning of RXSTATUS: the bytes of a status frame of length 4. -/
def execRxstatus (d0 d1 d2 d3 : Byte) (s : State) : Result :=
  .next (receiveBytes (statusBytes [d0, d1, d2, d3]) s)

/-- The meaning of BWRITE: BADDRW and three BWR. -/
def execBwrite (i lo hi : Byte) (s : State) : Result := .next (busRecord i lo hi s)

/-- The meaning of BSETIDX: BADDRW and one BWR; the record stays incomplete. -/
def execBsetidx (i : Byte) (s : State) : Result := .next (busWrite i (busAddrW s))

/-- The meaning of BREAD: BADDRR, BRD n times, BAF, BSTOP 0. -/
def execBread (n : Nat) (s : State) : Result :=
  .next (busStop false (busAckFail (busReads n (busAddrR s))))

/-- The hundreds part of a WAIT: TICK100 (t div 100) where t is at least 100. -/
def waitHundreds (t : Nat) (s : State) : State :=
  if 100 ≤ t then tick100By (BitVec.ofNat 8 (t / 100)) s else s

/-- The rest of a WAIT: TICK (t mod 100) where that is not 0. -/
def waitRest (t : Nat) (s : State) : State :=
  if t % 100 ≠ 0 then tickBy (BitVec.ofNat 8 (t % 100)) s else s

/-- The meaning of WAIT: TICK100 (t div 100), then TICK (t mod 100). -/
def execWait (t : Fin 25600) (s : State) : Result := .next (waitRest t.val (waitHundreds t.val s))

/-- The meaning of NOP: no stimulus. -/
def execNop (s : State) : Result := .next s

end Sys2Proof.Machine
end

