-- ==== Sys2Proof/Machine/Dispatch.lean ====
section
/-! DEFINITION. Dispatch.lean: one arm per constructor of `Instr`, each one direct call of its meaning. -/

namespace Sys2Proof.Machine

def exec (i : Instr) (s : State) : Host.Outcome State Fault Refusal :=
  match i with
  | .tick n => Sys2Proof.Machine.execTick n s
  | .tick100 n => Sys2Proof.Machine.execTick100 n s
  | .rxb b => Sys2Proof.Machine.execRxb b s
  | .post e => Sys2Proof.Machine.execPost e s
  | .scan b => Sys2Proof.Machine.execScan b s
  | .txdrop n => Sys2Proof.Machine.execTxdrop n s
  | .baddrw => Sys2Proof.Machine.execBaddrw s
  | .baddrr => Sys2Proof.Machine.execBaddrr s
  | .bwr b => Sys2Proof.Machine.execBwr b s
  | .brd => Sys2Proof.Machine.execBrd s
  | .bstop p => Sys2Proof.Machine.execBstop p s
  | .baf => Sys2Proof.Machine.execBaf s
  | .berr => Sys2Proof.Machine.execBerr s
  | .poll => Sys2Proof.Machine.execPoll s
  | .reset => Sys2Proof.Machine.execReset s
  | .illegal w => Sys2Proof.Machine.execIllegal w s
  | .postNone => Sys2Proof.Machine.execPostNone s
  | .postVolUp => Sys2Proof.Machine.execPostVolUp s
  | .postVolDown => Sys2Proof.Machine.execPostVolDown s
  | .postModeToggle => Sys2Proof.Machine.execPostModeToggle s
  | .postSetModeFromModule => Sys2Proof.Machine.execPostSetModeFromModule s
  | .postPower => Sys2Proof.Machine.execPostPower s
  | .postFactoryReset => Sys2Proof.Machine.execPostFactoryReset s
  | .postModuleVolumeSet => Sys2Proof.Machine.execPostModuleVolumeSet s
  | .postOther e => Sys2Proof.Machine.execPostOther e s
  | .rxseq bs => Sys2Proof.Machine.execRxseq bs s
  | .rxstatus d0 d1 d2 d3 => Sys2Proof.Machine.execRxstatus d0 d1 d2 d3 s
  | .bwrite idx lo hi => Sys2Proof.Machine.execBwrite idx lo hi s
  | .bsetidx idx => Sys2Proof.Machine.execBsetidx idx s
  | .bread n => Sys2Proof.Machine.execBread n s
  | .wait t => Sys2Proof.Machine.execWait t s
  | .nop => Sys2Proof.Machine.execNop s
  | .cmdFrame c d => Sys2Proof.Machine.execCmdFrame c d s
  | .statusFrame payload => Sys2Proof.Machine.execStatusFrame payload s
  | .writeRecord idx lo hi => Sys2Proof.Machine.execWriteRecord idx lo hi s
  | .recReject idx lo hi => Sys2Proof.Machine.execRecReject idx lo hi s
  | .recRawStore idx lo hi => Sys2Proof.Machine.execRecRawStore idx lo hi s
  | .recOob idx lo hi => Sys2Proof.Machine.execRecOob idx lo hi s
  | .recKeyCmd lo hi => Sys2Proof.Machine.execRecKeyCmd lo hi s
  | .recAuxCtrl lo hi => Sys2Proof.Machine.execRecAuxCtrl lo hi s
  | .recVolumeSet lo hi => Sys2Proof.Machine.execRecVolumeSet lo hi s
  | .keyMute lo => Sys2Proof.Machine.execKeyMute lo s
  | .keyUnmute lo => Sys2Proof.Machine.execKeyUnmute lo s
  | .keySpotifyMode lo => Sys2Proof.Machine.execKeySpotifyMode lo s
  | .keyBtMode lo => Sys2Proof.Machine.execKeyBtMode lo s
  | .keyVolUp lo => Sys2Proof.Machine.execKeyVolUp lo s
  | .keyVolDown lo => Sys2Proof.Machine.execKeyVolDown lo s
  | .keyPlayPause lo => Sys2Proof.Machine.execKeyPlayPause lo s
  | .keyNext lo => Sys2Proof.Machine.execKeyNext lo s
  | .keyPrev lo => Sys2Proof.Machine.execKeyPrev lo s
  | .keyResetNetwork lo => Sys2Proof.Machine.execKeyResetNetwork lo s
  | .keyFactoryReset lo => Sys2Proof.Machine.execKeyFactoryReset lo s
  | .mcStatusReq => Sys2Proof.Machine.execMcStatusReq s
  | .mcSetVolume v => Sys2Proof.Machine.execMcSetVolume v s
  | .fcUnmute => Sys2Proof.Machine.execFcUnmute s
  | .fcSpotify => Sys2Proof.Machine.execFcSpotify s
  | .fcSwitchSpotify => Sys2Proof.Machine.execFcSwitchSpotify s
  | .fcBt => Sys2Proof.Machine.execFcBt s
  | .fcVolUp => Sys2Proof.Machine.execFcVolUp s
  | .fcVolDown => Sys2Proof.Machine.execFcVolDown s
  | .fcFactoryReset => Sys2Proof.Machine.execFcFactoryReset s
  | .fcStandby => Sys2Proof.Machine.execFcStandby s

end Sys2Proof.Machine
end

