-- ==== Sys2Proof/Machine/Step.lean ====
section
/-! DEFINITION. Step.lean: one step takes the oldest pending input, decodes it and runs it. FSLINK
changes state only in response to its inputs (00_scope.md R1), and with none pending it waits
(70_reset_and_hazards.md R331): the state stays as it is (entry 8). A command frame set as `input.issue`
is run by itself; only the host's `withFetchWord` sets one, no input and no step does (entry 14). -/

namespace Sys2Proof.Machine

/-- The inputs left when the oldest is taken. -/
def takePending (rest : List Wire) (s : State) : State := s.withInput { s.input with pending := rest }

/-- The command frame to run by itself is taken. -/
def takeIssue (s : State) : State := s.withInput { s.input with issue := none }

/-- A step that takes an input. -/
def stepInput (x : Wire) (s : State) : Host.Outcome State Fault Refusal :=
  match decodeInput s.cfg x with
  | .ok i => exec i s
  | .error _ => .next (strayInput x s)

/-- A step that runs the sending of a command frame; six bytes that are no frame are sent by no rule. -/
def stepIssue (w : FrameWord) (s : State) : Host.Outcome State Fault Refusal :=
  match decode s.cfg (.cmd w) with
  | .ok i => exec i s
  | .error _ => .next (strayInput (.cmd w) s)

/-- One step. -/
def step (s : State) : Host.Outcome State Fault Refusal :=
  match s.input.issue with
  | some w => stepIssue w (takeIssue s)
  | none =>
    match s.input.pending with
    | [] => .next s
    | x :: rest => stepInput x (takePending rest s)

/-- One input presented to FSLINK, the only one pending. A command frame is presented like any other, and
is not taken (`decodeInput`). -/
def presentInput (x : Wire) (s : State) : State :=
  s.withInput { s.input with pending := [x], issue := none }

/-- What the host's question asks of the very next step: an input is the one pending; a command frame, which
is no input, is set to be sent by itself. Used by `withFetchWord` alone; no run presents anything this
way (entry 14). -/
def fetchSlot (x : Wire) (v : Input) : Input :=
  match x with
  | .cmd w => { v with issue := some w }
  | .stim w => { v with pending := [.stim w], issue := none }
  | .record w => { v with pending := [.record w], issue := none }
  | .status bs => { v with pending := [.status bs], issue := none }
  | .unknown n w => { v with pending := [.unknown n w], issue := none }

/-- The state in which the very next step takes one transaction, given as the opcode table numbers its
bits: an input as the one pending input, a command frame as the one to be sent. -/
def State.withFetchWord (s : State) (nbits w : Nat) : State :=
  s.withInput (fetchSlot (tableWire nbits w) s.input)

end Sys2Proof.Machine
end

