-- ==== Sys2Proof/Safety.lean ====
section
/-! DEFINITION. Safety.lean: the words the claims are stated in: a run over inputs and its final end
(70_reset_and_hazards.md R331), what the sink takes of a run of offered bytes (40_serial_link.md R124),
what a bus stimulus and an interrupt point leave alone (10_state.md R50, 60_exceptions.md R286), and the
invariant of every reachable state. -/

namespace Sys2Proof

/-- The stimuli of an interrupt point that the poll agent can see the effect of: not the bus agent's, and
not TXDROP, which only decides what the sink takes (60_exceptions.md R286). -/
def IpStim.environment : IpStim → Bool
  | .tick _ => true
  | .tick100 _ => true
  | .rxb _ => true
  | .post _ => true
  | .scan _ => true
  | .txdrop _ => false
  | .baddrw => false
  | .baddrr => false
  | .bwr _ => false
  | .brd => false
  | .bstop _ => false
  | .baf => false
  | .berr => false

/-- Whether a stimulus is a POST, the environment's one write of the event slot (42_mode_fsm.md R211). -/
def IpStim.isPost : IpStim → Bool
  | .post _ => true
  | .tick _ => false
  | .tick100 _ => false
  | .rxb _ => false
  | .scan _ => false
  | .txdrop _ => false
  | .baddrw => false
  | .baddrr => false
  | .bwr _ => false
  | .brd => false
  | .bstop _ => false
  | .baf => false
  | .berr => false

end Sys2Proof

namespace Sys2Proof.Machine

/-! ### Runs -/

/-- The state after each of `xs` has been presented as an input in turn. Inputs pending before are not
looked at; a command frame is no input, so it is presented and not taken (00_scope.md R1). -/
def runWires (xs : List Wire) (s : State) : Option State :=
  match xs with
  | [] => some s
  | x :: rest =>
    match step (presentInput x s) with
    | .next t => runWires rest t
    | .fault _ => none
    | .refused _ => none

/-- Instructions one after another, none where one stops. -/
def runInstrs (is : List Instr) (s : State) : Option State :=
  match is with
  | [] => some s
  | i :: rest =>
    match exec i s with
    | .next t => runInstrs rest t
    | .fault _ => none
    | .refused _ => none

/-- A run over `xs` that ends in a final state. -/
def safeRun (xs : List Wire) (s : State) : Bool :=
  match runWires xs s with
  | some t => t.final
  | none => false

/-! ### The sink -/

/-- Of the bytes offered in a row, those the sink takes: the first `drop` are abandoned (TXDROP, R95);
each later one is taken in a script, else as its draw says, the first draw being the `draw`-th (R124). -/
def takenBytes (scripted : Bool) (drop draw : Nat) (bs : List Byte) : List Byte :=
  match bs, drop with
  | [], _ => []
  | _ :: rest, d + 1 => takenBytes scripted d draw rest
  | b :: rest, 0 =>
    if scripted || Config.drawAccept draw then b :: takenBytes scripted 0 (draw + 1) rest
    else takenBytes scripted 0 (draw + 1) rest

/-- The bytes of `bs` the sink takes, offered in a row from state `s`. -/
def acceptedBytes (s : State) (bs : List Byte) : List Byte :=
  takenBytes s.scripted s.io.envTxDrop s.draws bs

/-- The state after `bs` has been offered in a row with no interrupt point between: what was taken
stands in `tx_log`, the drop counter and the draw counter have moved, nothing else has (R121, R124). -/
def afterOffer (s : State) (bs : List Byte) : State :=
  { s with
    io := { s.io with
      txLog := s.io.txLog ++ acceptedBytes s bs
      envTxDrop := s.io.envTxDrop - bs.length }
    draws := s.draws + (bs.length - s.io.envTxDrop) }

/-- No stimulus is in store for the coming interrupt points (a script POLL, 30_encoding.md R91). -/
def State.quietPoints (s : State) : Prop := s.input.ipSched = []

/-- The next POLL's link step does nothing: no stimulus in store, no byte queued, no status request due
(40_serial_link.md R116, R130). -/
structure State.linkQuiet (s : State) : Prop where
  points : s.quietPoints
  fifo : s.sync.rxFifo = []
  request : running s.cfg s.now s.link.tReq s.cfg.statusReqIntervalMs = true

/-- An event the tail does not act on but to acknowledge a module volume change (42_mode_fsm.md R253). -/
def tailInert (ev : Byte) : Prop := ev ≠ evVolUp ∧ ev ≠ evVolDown ∧ ev ≠ evFactoryReset

/-- What the end of a POLL makes of the state `t` its mode function left, where event `ev` was latched,
the tail does not act on it and no stimulus is in store: the acknowledgment, the counter and its
mirror, the cleared slot (42_mode_fsm.md R253, R256, R257, R214). -/
def tickEnd (ev : Byte) (t : State) : State :=
  { t with
    link := { t.link with
      volInFlight := if ev = evModuleVolumeSet then false else t.link.volInFlight }
    mem := if t.cfg.configDiagCounter then t.mem.write t.cfg.regAuxDiag.val (t.fsm.diagCounter + 1)
      else t.mem
    fsm := { t.fsm with event := 0, diagCounter := t.fsm.diagCounter + 1 } }

/-- The exit action of a mode at Stop where no stimulus is in store: what goes with leaving it, its
sub-state Idle and the mode that follows (42_mode_fsm.md R217, R229, R232, R236, R242, R246, R250). -/
def exitAction (s : State) : State :=
  match s.fsm.mode with
  | .idle => s
  | .booting => { s with
      mem := s.mem.write s.cfg.regBootFlags.val
        (s.mem.read s.cfg.regBootFlags.val ||| BitVec.twoPow 8 s.cfg.bootReadyBit.val)
      fsm := { s.fsm with tasks := { s.fsm.tasks with booting := .idle }, mode := s.fsm.nextMode,
                          tBoot := { s.fsm.tBoot with armed := false } } }
  | .bluetoothA2DP => { s with
      fsm := { s.fsm with tasks := { s.fsm.tasks with bluetoothA2DP := .idle },
                          mode := s.fsm.nextMode } }
  | .spotifyConnect => { s with
      fsm := { s.fsm with tasks := { s.fsm.tasks with spotifyConnect := .idle },
                          mode := s.fsm.nextMode,
                          tGrace := { s.fsm.tGrace with armed := false } } }
  | .networkConfig => { s with
      fsm := { s.fsm with tasks := { s.fsm.tasks with networkConfig := .idle },
                          mode := s.fsm.nextMode, netcfgDiscLatch := false } }
  | .factoryReset => { (afterOffer s
        [0xFF, 0x46, 0x53, 0x02, s.cfg.fcUnmute.cmd, s.cfg.fcUnmute.data]) with
      fsm := { s.fsm with tasks := { s.fsm.tasks with factoryReset := .idle },
                          mode := s.fsm.nextMode, volume := s.cfg.defaultVolume,
                          factoryInProgress := false } }
  | .standby => { s with
      fsm := { s.fsm with
        tasks := { s.fsm.tasks with standby := .idle }
        mode := if inWifiSetup s.cfg s.link.cur then .networkConfig else s.fsm.prevMode
        nextMode :=
          if inWifiSetup s.cfg s.link.cur then .networkConfig else s.fsm.prevMode } }

/-- The entry action of a mode at Init, the sub-state then Run, where no stimulus is in store: the mode's
command unless the module announced the mode, and what goes with it (42_mode_fsm.md R227, R231, R233,
R238, R243, R248). -/
def entryAction (s : State) : State :=
  let f := { s.fsm with tasks := s.fsm.tasks.set s.fsm.mode .run, fromModule := false }
  match s.fsm.mode with
  | .idle => s
  | .booting => { s with fsm := { f with tBoot := ⟨true, s.now⟩ } }
  | .bluetoothA2DP =>
    if s.fsm.fromModule then { s with fsm := f }
    else { (afterOffer s [0xFF, 0x46, 0x53, 0x02, s.cfg.fcBt.cmd, s.cfg.fcBt.data]) with
      fsm := { f with tBlock := ⟨true, s.now⟩ } }
  | .spotifyConnect =>
    if s.fsm.fromModule then
      { s with fsm := { f with tGrace := { s.fsm.tGrace with armed := false } } }
    else { (afterOffer s
        [0xFF, 0x46, 0x53, 0x02, s.cfg.fcSpotify.cmd, s.cfg.fcSpotify.data]) with
      fsm := { f with tBlock := ⟨true, s.now⟩, tGrace := { s.fsm.tGrace with armed := false } } }
  | .networkConfig => { s with fsm := { f with netcfgDiscLatch := false } }
  | .factoryReset => { (afterOffer s
        [0xFF, 0x46, 0x53, 0x02, s.cfg.fcFactoryReset.cmd, s.cfg.fcFactoryReset.data]) with
      fsm := f
      link := { s.link with ready := false } }
  | .standby => { (afterOffer s
        [0xFF, 0x46, 0x53, 0x02, s.cfg.fcStandby.cmd, s.cfg.fcStandby.data]) with
      fsm := { f with tBlock := ⟨true, s.now⟩ } }

/-- The Run handler of a mode where event `ev` was latched and no stimulus is in store: Booting's settle
time, the events of the user modes, the grace timeout, the reconnection pause, the end of a factory reset,
and Standby's one event (42_mode_fsm.md R229, R232, R234, R239, R245, R249). -/
def runAction (ev : Byte) (s : State) : State :=
  match s.fsm.mode with
  | .idle => s
  | .booting =>
    if s.cfg.bootSettleMs ≤ elapsed s.cfg s.now s.fsm.tBoot then { s with
      fsm := { s.fsm with nextMode := bootRuleOf s.cfg s.link.cur,
                          tasks := { s.fsm.tasks with booting := .stop } } }
    else s
  | .bluetoothA2DP => runEvents ev s
  | .spotifyConnect =>
    if (grace s).fsm.tasks.spotifyConnect = .run then runEvents ev (grace s)
    else grace s
  | .networkConfig =>
    if reconnErr s.cfg s.link.cur then
      { s with fsm := { s.fsm with tasks := { s.fsm.tasks with networkConfig := .pause } } }
    else runEvents ev (switchWhenOffline s)
  | .factoryReset =>
    if s.link.ready = true ∧ factoryBusy s.cfg s.link.cur = false then { s with
      fsm := { s.fsm with nextMode := s.cfg.defaultMode,
                          tasks := { s.fsm.tasks with factoryReset := .stop } } }
    else if ev = 0x03 then toggle s
    else s
  | .standby =>
    if ev = 0x05 then
      { s with fsm := { s.fsm with tasks := { s.fsm.tasks with standby := .stop } } }
    else s

/-- What the tail makes of state `s` where mode `m0` and event `ev` were latched and no stimulus is in
store: a volume key sends its frame and opens the echo window, a factory-reset event requests FactoryReset
where a change can be requested and none is under way; in Standby neither; and the acknowledgment, the
counter and its mirror in every mode (42_mode_fsm.md R253 to R257). -/
def tailAction (m0 : Mode) (ev : Byte) (s : State) : State :=
  let t :=
    if m0 = .standby then s
    else if ev = 0x01 then { (afterOffer s
        [0xFF, 0x46, 0x53, 0x02, s.cfg.fcVolUp.cmd, s.cfg.fcVolUp.data]) with
      link := { s.link with tEcho := ⟨true, s.now⟩ } }
    else if ev = 0x02 then { (afterOffer s
        [0xFF, 0x46, 0x53, 0x02, s.cfg.fcVolDown.cmd, s.cfg.fcVolDown.data]) with
      link := { s.link with tEcho := ⟨true, s.now⟩ } }
    else if ev = 0x06 ∧ s.fsm.factoryInProgress = false ∧
        s.fsm.tasks.get s.fsm.mode ∈ [.init, .run, .pause] then
      { s with fsm := { s.fsm with
        factoryInProgress := true
        fromModule := false
        nextMode := .factoryReset
        tasks := s.fsm.tasks.set s.fsm.mode .stop } }
    else s
  let u := { t with
    link := { t.link with volInFlight := if ev = 0x07 then false else t.link.volInFlight }
    fsm := { t.fsm with diagCounter := s.fsm.diagCounter + 1 } }
  if s.cfg.configDiagCounter then
    { u with mem := u.mem.write s.cfg.regAuxDiag.val (s.fsm.diagCounter + 1) } else u

/-- What the end of a POLL makes of the state its mode function left, where mode `m0` and event `ev` were
latched before it and no stimulus is in store: the tail, and the cleared slot (42_mode_fsm.md R212, R214,
R253 to R257). -/
def pollEnd (m0 : Mode) (ev : Byte) (s : State) : State :=
  let t := tailAction m0 ev s
  { t with fsm := { t.fsm with event := 0 } }

/-- The status request a POLL begins with, where no stimulus is in store: sent when due, its timer armed
first (40_serial_link.md R130). -/
def afterRequest (s : State) : State :=
  if expired s.cfg s.now s.link.tReq s.cfg.statusReqIntervalMs then
    afterOffer { s with link := { s.link with tReq := ⟨true, s.now⟩ } }
      [0xFF, 0x46, 0x53, 0x02, s.cfg.mcStatusReq.cmd, s.cfg.mcStatusReq.data]
  else s

/-- The same with every POST struck from the interrupt points still to come. -/
def withoutPosts (s : State) : State :=
  { s with input := { s.input with
    ipSched := s.input.ipSched.map (fun is => is.filter (fun i => !i.isPost)) } }

/-- The synchronizer called once for each chunk of a byte stream, the chunk being what has arrived since
the call before: what each call reported, and the state after (40_serial_link.md R118, R119). -/
def feedCalls (chunks : List (List Byte)) (s : State) : List Bool × State :=
  match chunks with
  | [] => ([], s)
  | chunk :: rest =>
    let r := syncCall (setFifo (s.sync.rxFifo ++ chunk) s)
    let q := feedCalls rest r.2
    (r.1 :: q.1, q.2)

/-! ### What an agent leaves alone -/

/-- What a bus stimulus leaves alone (10_state.md R50): all but the register file, the indicator, the
bus slave, the model fault's mark, the histories and the draw counter. -/
structure BusKeeps (s t : State) : Prop where
  cfg : t.cfg = s.cfg
  now : t.now = s.now
  sync : t.sync = s.sync
  link : t.link = s.link
  fsm : t.fsm = s.fsm
  refused : t.refused = s.refused
  input : t.input = s.input
  scripted : t.scripted = s.scripted

/-- What the stimuli of an interrupt point leave alone (20_memory.md R72, 60_exceptions.md R286): of
the synchronizer all but the FIFO, the whole link, of the mode machine all but the event slot and the
scan flag. -/
structure IpKeeps (s t : State) : Prop where
  cfg : t.cfg = s.cfg
  sync : t.sync = { s.sync with rxFifo := t.sync.rxFifo }
  link : t.link = s.link
  fsm : t.fsm = { s.fsm with event := t.fsm.event, scanInProgress := t.fsm.scanInProgress }
  refused : t.refused = s.refused
  pending : t.input.pending = s.input.pending
  issue : t.input.issue = s.input.issue
  scripted : t.scripted = s.scripted

/-! ### The invariant -/

/-- What holds of every reachable state: the register file's canonical form (10_state.md R33), the
ranges of the tick and the timers (R22, R47), of the FIFO (R23) and of the synchronizer's counters
(R25, R26), the buffer that equals the snapshot outside the frame in progress (40_serial_link.md R117),
the transient recovery state and the record count (41_register_bus.md R182, R172), and the task and
mode facts of 42_mode_fsm.md R215 to R219 and R251. -/
structure Inv (s : State) : Prop where
  memWf : s.mem.wf = true
  nowLt : s.now < 2 ^ s.cfg.tickBits
  reqLt : s.link.tReq.start < 2 ^ s.cfg.tickBits
  echoLt : s.link.tEcho.start < 2 ^ s.cfg.tickBits
  blockLt : s.fsm.tBlock.start < 2 ^ s.cfg.tickBits
  debounceLt : s.fsm.tDebounce.start < 2 ^ s.cfg.tickBits
  bootLt : s.fsm.tBoot.start < 2 ^ s.cfg.tickBits
  graceLt : s.fsm.tGrace.start < 2 ^ s.cfg.tickBits
  fifo : s.sync.rxFifo.length ≤ s.cfg.rxFifoDepth
  lenLe : s.sync.len.toNat ≤ statusMaxLen
  countLe : s.sync.count.toNat ≤ if s.sync.state = .collect then s.sync.len.toNat else 0
  bufCur : ∀ k < 4, s.sync.count.toNat ≤ k + 1 → s.sync.buf.get k = s.link.cur.get k
  busState : s.bus.state ≠ .errRecovery
  rxCount : s.bus.state = .addrW → s.bus.rxCount.toNat < recBytes
  tasksIdle : ∀ m, m ≠ s.fsm.mode → s.fsm.tasks.get m = .idle
  idleInert : s.fsm.tasks.idle = .idle
  pauseOnly : ∀ m, s.fsm.tasks.get m = .pause → m = .networkConfig
  prevMode : s.fsm.prevMode = .bluetoothA2DP ∨ s.fsm.prevMode = .spotifyConnect
    ∨ s.fsm.prevMode = .networkConfig
  nextMode : s.fsm.tasks.get s.fsm.mode ≠ .stop → s.fsm.nextMode = s.fsm.mode

/-- No value of the configuration names FactoryReset as a mode to enter (what 42_mode_fsm.md R244 rests
on: neither moduleModeMap nor DEFAULT_MODE yields it; BootRule and ToggleTarget never do). -/
def Cfg.noFactoryTarget (c : Cfg) : Prop :=
  (∀ n, moduleModeOf c n ≠ some .factoryReset) ∧ c.defaultMode ≠ .factoryReset

/-- The life of `factory_in_progress` (42_mode_fsm.md R244, R246, R255): it is set exactly while a
factory reset is requested or under way; Standby requests none (R253). -/
structure FactoryFlag (s : State) : Prop where
  underWay : s.fsm.mode = .factoryReset → s.fsm.factoryInProgress = true
  requested : s.fsm.nextMode = .factoryReset → s.fsm.factoryInProgress = true
  only : s.fsm.factoryInProgress = true → s.fsm.mode = .factoryReset ∨ s.fsm.nextMode = .factoryReset
  leaving : s.fsm.mode = .factoryReset → s.fsm.tasks.factoryReset = .stop →
    s.fsm.nextMode ≠ .factoryReset
  standby : s.fsm.mode = .standby → s.fsm.nextMode ≠ .factoryReset

end Sys2Proof.Machine
end

