-- ==== Sys2Proof/Certificates/Slice0/Obligations.lean ====
section
/-! DEFINITION. Obligations.lean: the statements for the provers. Each says which rules of spec/ it
formalises. A statement that rests on a convention of the model names the log entry. -/

open Sys2Proof Sys2Proof.Machine

/-! ### Time, inputs and marks -/

/-- TICK and TICK100 add to `now` modulo 2^TICK_BITS and change nothing else (40_serial_link.md R150,
R151). -/
def Obligations.TicksAdvanceNow : Prop :=
  ∀ (n : Byte) (s : State),
    exec (.tick n) s = .next { s with now := (s.now + n.toNat) % 2 ^ s.cfg.tickBits } ∧
    exec (.tick100 n) s = .next { s with now := (s.now + 100 * n.toNat) % 2 ^ s.cfg.tickBits }

/-- WAIT t adds t milliseconds, whatever way its expansion splits them (30_encoding.md R92). -/
def Obligations.WaitAdvancesByItsMilliseconds : Prop :=
  ∀ (t : Fin 25600) (s : State), s.now < 2 ^ s.cfg.tickBits →
    exec (.wait t) s = .next { s with now := (s.now + t.val) % 2 ^ s.cfg.tickBits }

/-- Bytes that arrive are queued in order as far as the FIFO has room, the rest is lost without a trace:
RXB, and the rows that stand for several RXB (40_serial_link.md R110; 30_encoding.md R82, R92; log
entry 13 for STATUS_FRAME). -/
def Obligations.ReceivedBytesQueueInOrder : Prop :=
  ∀ s : State,
    (∀ b, exec (.rxb b) s = .next
      (if s.sync.rxFifo.length < s.cfg.rxFifoDepth then
        { s with sync := { s.sync with rxFifo := s.sync.rxFifo ++ [b] } } else s)) ∧
    (∀ bs, exec (.rxseq bs) s = .next { s with sync := { s.sync with
      rxFifo := s.sync.rxFifo ++ bs.take (s.cfg.rxFifoDepth - s.sync.rxFifo.length) } }) ∧
    (∀ d0 d1 d2 d3, exec (.rxstatus d0 d1 d2 d3) s = .next { s with sync := { s.sync with
      rxFifo := s.sync.rxFifo ++ [0xFF, 0x46, 0x53, 0x04, d0, d1, d2, d3].take
        (s.cfg.rxFifoDepth - s.sync.rxFifo.length) } }) ∧
    (∀ payload : List Byte, payload.length ≤ 4 →
      exec (.statusFrame payload) s = .next { s with sync := { s.sync with
        rxFifo := s.sync.rxFifo ++ ([0xFF, 0x46, 0x53, BitVec.ofNat 8 payload.length] ++ payload).take
          (s.cfg.rxFifoDepth - s.sync.rxFifo.length) } })

/-- POST overwrites the event slot, by event code and row by row; SCAN sets the scan flag; neither
changes anything else (42_mode_fsm.md R211, R258, R259; 30_encoding.md R96). -/
def Obligations.PostAndScanSetTheirInputs : Prop :=
  ∀ s : State,
    (∀ e, exec (.post e) s = .next { s with fsm := { s.fsm with event := e } }) ∧
    exec .postNone s = .next { s with fsm := { s.fsm with event := 0x00 } } ∧
    exec .postVolUp s = .next { s with fsm := { s.fsm with event := 0x01 } } ∧
    exec .postVolDown s = .next { s with fsm := { s.fsm with event := 0x02 } } ∧
    exec .postModeToggle s = .next { s with fsm := { s.fsm with event := 0x03 } } ∧
    exec .postSetModeFromModule s = .next { s with fsm := { s.fsm with event := 0x04 } } ∧
    exec .postPower s = .next { s with fsm := { s.fsm with event := 0x05 } } ∧
    exec .postFactoryReset s = .next { s with fsm := { s.fsm with event := 0x06 } } ∧
    exec .postModuleVolumeSet s = .next { s with fsm := { s.fsm with event := 0x07 } } ∧
    (∀ e, exec (.postOther e) s = .next { s with fsm := { s.fsm with event := e } }) ∧
    (∀ b, exec (.scan b) s = .next { s with fsm := { s.fsm with scanInProgress := b } })

/-- TXDROP sets the drop counter; while it is not 0 each offered byte is abandoned and counts it down;
else the byte is taken in a script, and as its free draw says otherwise (30_encoding.md R95,
40_serial_link.md R124). That the draw is a free value of a counter, and that a script is a field of
the state, are the model's (log entries 5 and 6). -/
def Obligations.TxdropAbandonsOfferedBytes : Prop :=
  ∀ s : State,
    (∀ n : Byte, exec (.txdrop n) s = .next { s with io := { s.io with envTxDrop := n.toNat } }) ∧
    (∀ b, 0 < s.io.envTxDrop →
      emit b s = { s with io := { s.io with envTxDrop := s.io.envTxDrop - 1 } }) ∧
    (∀ b, s.io.envTxDrop = 0 →
      emit b s = { s with
        io := { s.io with txLog :=
          if s.scripted = true ∨ Config.drawAccept s.draws = true then s.io.txLog ++ [b]
          else s.io.txLog }
        draws := s.draws + 1 })

/-- A word is illegal exactly where R90's table assigns it nothing, and an illegal word sets the sticky
mark and does nothing else (30_encoding.md R97). -/
def Obligations.IllegalWordSetsRefused : Prop :=
  (∀ (w : StimWord) (s : State), exec (.illegal w) s = .next { s with refused := true }) ∧
  ∀ w : StimWord, decodeStim w = .illegal w ↔
    ¬ (w.toNat / 256 ∈ [0x01, 0x02, 0x10, 0x11, 0x13, 0x22] ∨
      (w.toNat / 256 ∈ [0x12, 0x24] ∧ w.toNat % 256 ≤ 1) ∨
      (w.toNat / 256 ∈ [0x20, 0x21, 0x23, 0x25, 0x26, 0x30, 0x3F] ∧ w.toNat % 256 = 0))

/-- RESET gives every FSLINK element its value of the table of 70_reset_and_hazards.md R301 and leaves
the configuration, the histories and the script counter alone (R300). -/
def Obligations.ResetRestoresEveryElement : Prop :=
  ∀ s : State, ∃ t, exec .reset s = .next t ∧
    t.now = 0 ∧
    t.sync = ⟨[], .awaitM1, 0, 0, ⟨0, 0, 0, 0⟩⟩ ∧
    t.link = ⟨⟨0, 0, 0, 0⟩, ⟨0, 0, 0, 0⟩, false, ⟨false, 0⟩, false, ⟨false, 0⟩⟩ ∧
    t.mem.wf = true ∧
    (∀ a < 12, t.mem.read a = if a = s.cfg.regFwId.val then s.cfg.fwId else 0) ∧
    t.indicator = false ∧
    t.bus = ⟨.idle, ⟨0, 0, 0⟩, 0, 0, 0, 0, 0, 0⟩ ∧
    t.fsm = { mode := .booting, nextMode := .booting, prevMode := .spotifyConnect,
              tasks := ⟨.idle, .idle, .idle, .idle, .idle, .idle, .idle⟩,
              volume := s.cfg.initVolume, fromModule := false, factoryInProgress := false,
              scanInProgress := false, netcfgDiscLatch := false, event := 0, diagCounter := 0,
              tBlock := ⟨false, 0⟩, tDebounce := ⟨false, 0⟩, tBoot := ⟨false, 0⟩,
              tGrace := ⟨false, 0⟩ } ∧
    t.faultRegfileOob = false ∧ t.refused = false ∧
    t.cfg = s.cfg ∧ t.io = s.io ∧ t.input = s.input ∧ t.draws = s.draws ∧ t.scripted = s.scripted

/-- Power-on and RESET are the same (70_reset_and_hazards.md R300): under the configuration that
State.reset has, RESET leaves State.reset's FSLINK elements. That this configuration is CFG0, and what
the parts that are not FSLINK's hold, are the model's choices (log entries 1, 5 to 9). -/
def Obligations.PowerOnIsTheResetState : Prop :=
  ∀ s : State, s.cfg = State.reset.cfg →
    exec .reset s = .next { State.reset with
      io := s.io, input := s.input, draws := s.draws, scripted := s.scripted }

/-! ### The register bus slave -/

/-- An address match starts a write or a read transaction in every state (41_register_bus.md R170,
R174). -/
def Obligations.AddressMatchStartsTransaction : Prop :=
  ∀ s : State,
    exec .baddrw s = .next { s with bus := { s.bus with rxCount := 0, state := .addrW } } ∧
    exec .baddrr s = .next { s with bus := { s.bus with
      startPosition := s.bus.record.index, txPos := s.bus.record.index, txCount := 0,
      state := .addrR } }

/-- BWR: the first two bytes of a record are stored and acknowledged, the third is stored, refused and
routed before the slave listens again; a byte outside a write transaction is refused and ignored
(41_register_bus.md R171, R172, R173). -/
def Obligations.BwrStoresAcknowledgesAndRoutes : Prop :=
  ∀ (b : Byte) (s : State),
    (s.bus.state ≠ .addrW →
      exec (.bwr b) s = .next { s with io := { s.io with ackLog := s.io.ackLog ++ [false] } }) ∧
    (s.bus.state = .addrW → s.bus.rxCount = 0 →
      exec (.bwr b) s = .next { s with
        io := { s.io with ackLog := s.io.ackLog ++ [true] }
        bus := { s.bus with record := { s.bus.record with index := b }, rxCount := 1 } }) ∧
    (s.bus.state = .addrW → s.bus.rxCount = 1 →
      exec (.bwr b) s = .next { s with
        io := { s.io with ackLog := s.io.ackLog ++ [true] }
        bus := { s.bus with record := { s.bus.record with lo := b }, rxCount := 2 } }) ∧
    (s.bus.state = .addrW → s.bus.rxCount = 2 → ∃ u,
      u = route { s with
        io := { s.io with ackLog := s.io.ackLog ++ [false] }
        bus := { s.bus with record := { s.bus.record with hi := b }, rxCount := 3 } } ∧
      exec (.bwr b) s = .next { u with bus := { u.bus with state := .idle } })

/-- BRD: inside a read transaction the byte of `tx_pos` (past the storage a free byte), and the position
and the count move on; outside it a free byte and nothing else (41_register_bus.md R175, 20_memory.md
R61). The free bytes are the draws of log entry 5. -/
def Obligations.BrdReturnsRegisterByte : Prop :=
  ∀ s : State,
    (s.bus.state = .addrR → s.bus.txPos.toNat < 12 →
      exec .brd s = .next { s with
        io := { s.io with rdLog := s.io.rdLog ++ [s.mem.read s.bus.txPos.toNat] }
        bus := { s.bus with txPos := s.bus.txPos + 1, txCount := s.bus.txCount + 1 } }) ∧
    (s.bus.state = .addrR → 12 ≤ s.bus.txPos.toNat →
      exec .brd s = .next { s with
        io := { s.io with rdLog := s.io.rdLog ++ [Config.drawByte s.draws] }
        bus := { s.bus with txPos := s.bus.txPos + 1, txCount := s.bus.txCount + 1 }
        draws := s.draws + 1 }) ∧
    (s.bus.state ≠ .addrR →
      exec .brd s = .next { s with
        io := { s.io with rdLog := s.io.rdLog ++ [Config.drawByte s.draws] }
        draws := s.draws + 1 })

/-- BREAD n streams n bytes from the index of the last record, one index further for each, modulo 256;
each byte at an index that holds storage is the stored byte; the read ends as every read ends, and
nothing but the bus slave, the read history and the draw counter has changed (30_encoding.md R89, R92;
41_register_bus.md R174, R175, R179). -/
def Obligations.BreadStreamsRegisters : Prop :=
  ∀ (n : Nat) (s : State), ∃ t bs,
    exec (.bread n) s = .next t ∧
    bs.length = n ∧
    (∀ k < n, (s.bus.record.index.toNat + k) % 256 < 12 →
      bs[k]? = some (s.mem.read ((s.bus.record.index.toNat + k) % 256))) ∧
    t = { s with
      io := { s.io with rdLog := s.io.rdLog ++ bs }
      bus := { s.bus with
        startPosition := s.bus.record.index
        txPos := s.bus.record.index + BitVec.ofNat 8 n
        txCount := 0
        lastTxCount := BitVec.ofNat 32 n
        state := .idle }
      draws := t.draws }

/-- How a transaction ends. BSTOP: an incomplete record is abandoned (p = 0) or taken as an acknowledge
failure (p = 1): R177 gives the operand that choice in a script, and that it chooses in every run is the
model's (log entry 19); the slave listens again. BAF: while receiving, the count is recorded and the partial
record routed under `process_retained`; while transmitting, the count is recorded and reset; in Idle
nothing. BERR: the record and the counts are cleared (41_register_bus.md R176 to R181). ERR_RECOVERY
never holds between stimuli (R182), so BAF is not asked of it. -/
def Obligations.TransactionEndings : Prop :=
  ∀ s : State, ∃ u,
    u = (match s.cfg.partialRecordPolicy with
      | .processRetained => route { s with bus := { s.bus with lastRxCount := s.bus.rxCount } }
      | .drop => { s with bus := { s.bus with lastRxCount := s.bus.rxCount } }) ∧
    exec (.bstop false) s = .next { s with bus := { s.bus with state := .idle } } ∧
    (s.bus.state = .addrW → s.bus.rxCount.toNat < 3 →
      exec (.bstop true) s = .next { u with bus := { u.bus with state := .idle } }) ∧
    (s.bus.state ≠ .addrW ∨ s.bus.rxCount.toNat = 3 →
      exec (.bstop true) s = .next { s with bus := { s.bus with state := .idle } }) ∧
    (s.bus.state = .addrW →
      exec .baf s = .next { u with bus := { u.bus with state := .idle } }) ∧
    (s.bus.state = .addrR →
      exec .baf s = .next { s with bus := { s.bus with
        lastTxCount := s.bus.txCount, txCount := 0, state := .idle } }) ∧
    (s.bus.state = .idle → exec .baf s = .next s) ∧
    exec .berr s = .next { s with bus := { s.bus with
      record := ⟨0, 0, 0⟩, rxCount := 0, txCount := 0, state := .idle } }

/-- What the bus agent leaves alone, stimulus by stimulus and record by record: the tick, the
synchronizer, the link, the mode machine, the refusal mark; and every byte of the register file but the
one the record's index names (10_state.md R50, 20_memory.md R72). -/
def Obligations.BusAgentLeavesTheRestAlone : Prop :=
  (∀ (j : Instr) (s : State), s.mem.wf = true →
    (j ∈ [.baddrw, .baddrr, .brd, .bstop false, .bstop true, .baf, .berr] ∨ ∃ b, j = .bwr b) →
    ∃ t, exec j s = .next t ∧ BusKeeps s t ∧
      ∀ a, a ≠ s.bus.record.index.toNat → t.mem.read a = s.mem.read a) ∧
  (∀ (i lo hi : Byte) (j : Instr) (s : State), s.mem.wf = true →
    (j ∈ [.writeRecord i lo hi, .bwrite i lo hi, .recReject i lo hi, .recRawStore i lo hi,
      .recOob i lo hi] ∨
     (j = .recKeyCmd lo hi ∧ i = 2) ∨
     (j = .recAuxCtrl lo hi ∧ i = regByte s.cfg.regAuxCtrl) ∨
     (j = .recVolumeSet lo hi ∧ i = regByte s.cfg.regVolumeSet) ∨
     (∃ k, j = keyRow k lo ∧ i = 2)) →
    ∃ t, exec j s = .next t ∧ BusKeeps s t ∧ ∀ a, a ≠ i.toNat → t.mem.read a = s.mem.read a)

/-! ### The command router -/

/-- A record with an index above 15 is received and rejected: nothing written, sent or reported. One
with index 12 to 15 raises the sticky model fault where the bus stores, and stores nothing; where it
does not store, nothing happens (41_register_bus.md R191, R193). -/
def Obligations.RecordsOutsideTheStorage : Prop :=
  ∀ (i lo hi : Byte) (s : State), ∃ u,
    u = { s with
      io := { s.io with ackLog := s.io.ackLog ++ [true, true, false] }
      bus := { s.bus with state := .idle, record := ⟨i, lo, hi⟩, rxCount := 3 } } ∧
    (16 ≤ i.toNat → ∀ j ∈ [Instr.recReject i lo hi, .writeRecord i lo hi, .bwrite i lo hi],
      exec j s = .next u) ∧
    (12 ≤ i.toNat → i.toNat ≤ 15 →
      ∀ j ∈ [Instr.recOob i lo hi, .writeRecord i lo hi, .bwrite i lo hi],
        exec j s = .next { u with faultRegfileOob :=
          match s.cfg.rawStoreMode with
          | .byte => true
          | .none => s.faultRegfileOob })

/-- A record with a storage index stores its low data byte there and nowhere else, the router's targets
included, where the bus stores at all; an index that is no target does nothing more
(41_register_bus.md R192, R199). -/
def Obligations.RawStoreWritesLowByte : Prop :=
  ∀ (i lo hi : Byte) (s : State), i.toNat < 12 → s.mem.wf = true →
    ∀ j ∈ [Instr.recRawStore i lo hi, .writeRecord i lo hi, .bwrite i lo hi], ∃ t,
      exec j s = .next t ∧
      t.mem.wf = true ∧
      (∀ a, t.mem.read a =
        if a = i.toNat ∧ s.cfg.rawStoreMode = .byte then lo else s.mem.read a) ∧
      (i ≠ 2 → i ≠ regByte s.cfg.regVolumeSet → i ≠ regByte s.cfg.regAuxCtrl →
        t = { s with
          io := { s.io with ackLog := s.io.ackLog ++ [true, true, false] }
          bus := { s.bus with state := .idle, record := ⟨i, lo, hi⟩, rxCount := 3 }
          mem := t.mem })

/-- Reads reflect the latest write (20_memory.md R63): a byte stored by a record is what the next read
of that index returns. And an index set by a one-byte write and a repeated start is read without being
written or routed (41_register_bus.md R174). -/
def Obligations.ReadsReflectTheLatestWrite : Prop :=
  ∀ (i lo hi : Byte) (s : State), i.toNat < 12 → s.mem.wf = true →
    (s.cfg.rawStoreMode = .byte → ∃ t,
      runInstrs [.writeRecord i lo hi, .baddrr, .brd] s = some t ∧
      t.io.rdLog = s.io.rdLog ++ [lo]) ∧
    (∃ t, runInstrs [.bsetidx i, .baddrr, .brd] s = some t ∧
      t.io.rdLog = s.io.rdLog ++ [s.mem.read i.toNat] ∧
      t.io.txLog = s.io.txLog ∧ t.mem = s.mem ∧ t.indicator = s.indicator ∧ BusKeeps s t)

/-- BSETIDX stores the index byte, acknowledges it, and leaves the record incomplete (30_encoding.md R92,
41_register_bus.md R170, R172). -/
def Obligations.BsetidxLeavesRecordIncomplete : Prop :=
  ∀ (i : Byte) (s : State),
    exec (.bsetidx i) s = .next { s with
      io := { s.io with ackLog := s.io.ackLog ++ [true] }
      bus := { s.bus with
        state := .addrW, record := { s.bus.record with index := i }, rxCount := 1 } }

/-- A key record offers the frame of its key's command, with the key-pressed qualifier 0x80, in one
piece; an unknown code sends nothing. The raw store has happened in both cases (41_register_bus.md
R195, R196, R192). What of the frame is accepted is `acceptedBytes`, inside `afterOffer` (log entry 5). -/
def Obligations.KeyRecordForwardsTheKey : Prop :=
  ∀ (lo hi : Byte) (s : State), ∃ u,
    u = { s with
      io := { s.io with ackLog := s.io.ackLog ++ [true, true, false] }
      bus := { s.bus with state := .idle, record := ⟨2, lo, hi⟩, rxCount := 3 }
      mem := match s.cfg.rawStoreMode with
        | .byte => s.mem.write 2 lo
        | .none => s.mem } ∧
    ∀ j ∈ [Instr.recKeyCmd lo hi, .writeRecord 2 lo hi, .bwrite 2 lo hi],
      (keyOf s.cfg hi = none → exec j s = .next u) ∧
      (∀ k, keyOf s.cfg hi = some k →
        exec j s = .next (afterOffer u [0xFF, 0x46, 0x53, 0x02, (s.cfg.keyCode k).cmd, 0x80]))

/-- Each of the eleven key rows sends a command of the payload it writes, its own where the payloads are
distinct (30_encoding.md R93, 41_register_bus.md R195). -/
def Obligations.EveryKeyRowSendsItsCommand : Prop :=
  ∀ (k : Key) (lo : Byte) (s : State), ∃ k',
    (s.cfg.keyCode k').payload = (s.cfg.keyCode k).payload ∧
    ((∀ j, (s.cfg.keyCode j).payload = (s.cfg.keyCode k).payload → j = k) → k' = k) ∧
    ∀ j ∈ [(Key.mute, Instr.keyMute lo), (.unmute, .keyUnmute lo), (.spotifyMode, .keySpotifyMode lo),
      (.btMode, .keyBtMode lo), (.volUp, .keyVolUp lo), (.volDown, .keyVolDown lo),
      (.playPause, .keyPlayPause lo), (.next, .keyNext lo), (.prev, .keyPrev lo),
      (.resetNetwork, .keyResetNetwork lo), (.factoryReset, .keyFactoryReset lo)],
      j.1 = k →
      exec j.2 s = .next (afterOffer { s with
        io := { s.io with ackLog := s.io.ackLog ++ [true, true, false] }
        bus := { s.bus with
          state := .idle, record := ⟨2, lo, (s.cfg.keyCode k).payload⟩, rxCount := 3 }
        mem := match s.cfg.rawStoreMode with
          | .byte => s.mem.write 2 lo
          | .none => s.mem } [0xFF, 0x46, 0x53, 0x02, (s.cfg.keyCode k').cmd, 0x80])

/-- The source's worked frame, in every configuration: the record 02 80 01 sends FF 46 53 02 03 80
(41_register_bus.md R195, 30_encoding.md R80), in a script where nothing is dropped. -/
def Obligations.MuteRecordSendsWorkedFrame : Prop :=
  ∀ s : State, s.scripted = true → s.io.envTxDrop = 0 →
    ∀ j ∈ [Instr.keyMute 0x80, .recKeyCmd 0x80 0x01, .writeRecord 0x02 0x80 0x01,
      .bwrite 0x02 0x80 0x01], ∃ t,
      exec j s = .next t ∧ t.io.txLog = s.io.txLog ++ [0xFF, 0x46, 0x53, 0x02, 0x03, 0x80]

/-- The volume-set register forwards a 16-bit value up to 32 and drops a greater one; the auxiliary
register sets the indicator on the values 0 and 1 and ignores every other; the raw store has happened in
each case (41_register_bus.md R197, R198, R192). MC_SET_VOLUME is the router's send alone (log entry
14). The registers stand at distinct indices (R161). -/
def Obligations.VolumeSetAndAuxRecords : Prop :=
  ∀ (lo hi : Byte) (s : State), s.cfg.regsDistinct = true →
    (∃ u, u = { s with
        io := { s.io with ackLog := s.io.ackLog ++ [true, true, false] }
        bus := { s.bus with
          state := .idle, record := ⟨regByte s.cfg.regVolumeSet, lo, hi⟩, rxCount := 3 }
        mem := match s.cfg.rawStoreMode with
          | .byte => s.mem.write s.cfg.regVolumeSet.val lo
          | .none => s.mem } ∧
      exec (.recVolumeSet lo hi) s = .next
        (if lo.toNat + 256 * hi.toNat ≤ 32 then
          afterOffer u [0xFF, 0x46, 0x53, 0x02, s.cfg.mcSetVolume, lo] else u)) ∧
    exec (.recAuxCtrl lo hi) s = .next { s with
      io := { s.io with ackLog := s.io.ackLog ++ [true, true, false] }
      bus := { s.bus with
        state := .idle, record := ⟨regByte s.cfg.regAuxCtrl, lo, hi⟩, rxCount := 3 }
      mem := match s.cfg.rawStoreMode with
        | .byte => s.mem.write s.cfg.regAuxCtrl.val lo
        | .none => s.mem
      indicator := if hi = 0 ∧ lo = 0 then false else if hi = 0 ∧ lo = 1 then true
        else s.indicator } ∧
    (lo.toNat ≤ 32 → exec (.mcSetVolume lo) s = .next
      (afterOffer s [0xFF, 0x46, 0x53, 0x02, s.cfg.mcSetVolume, lo]))

/-- A write cut short after its index byte is routed with the data bytes an earlier record left: what it
stores, sends, shows and faults is what the whole record of those bytes does (41_register_bus.md R178,
70_reset_and_hazards.md R317). -/
def Obligations.CutShortWriteRoutesStaleBytes : Prop :=
  ∀ (i : Byte) (s : State), s.cfg.partialRecordPolicy = .processRetained →
    ∃ t u, runInstrs [.bsetidx i, .baf] s = some t ∧
      exec (.writeRecord i s.bus.record.lo s.bus.record.hi) s = .next u ∧
      t.mem = u.mem ∧ t.indicator = u.indicator ∧ t.faultRegfileOob = u.faultRegfileOob ∧
      t.io.txLog = u.io.txLog ∧ t.bus.record = u.bus.record ∧
      t.bus.state = .idle ∧ t.bus.lastRxCount = 1

/-! ### Script lines and command rows -/

/-- Every script line is its expansion, run in order with nothing between (30_encoding.md R91, R92). -/
def Obligations.ScriptLinesAreTheirExpansion : Prop :=
  ∀ s : State,
    (∀ bs : List Byte, ∃ t, exec (.rxseq bs) s = .next t ∧
      runInstrs (bs.map Instr.rxb) s = some t) ∧
    (∀ d0 d1 d2 d3, ∃ t, exec (.rxstatus d0 d1 d2 d3) s = .next t ∧
      runInstrs [.rxseq [0xFF, 0x46, 0x53, 0x04, d0, d1, d2, d3]] s = some t) ∧
    (∀ i lo hi, ∃ t, exec (.bwrite i lo hi) s = .next t ∧
      runInstrs [.baddrw, .bwr i, .bwr lo, .bwr hi] s = some t) ∧
    (∀ i, ∃ t, exec (.bsetidx i) s = .next t ∧ runInstrs [.baddrw, .bwr i] s = some t) ∧
    (∀ n, ∃ t, exec (.bread n) s = .next t ∧
      runInstrs ([.baddrr] ++ List.replicate n .brd ++ [.baf, .bstop false]) s = some t) ∧
    (∀ w : Fin 25600, ∃ t, exec (.wait w) s = .next t ∧
      runInstrs ((if 100 ≤ w.val then [.tick100 (BitVec.ofNat 8 (w.val / 100))] else []) ++
        (if w.val % 100 ≠ 0 then [.tick (BitVec.ofNat 8 (w.val % 100))] else [])) s = some t) ∧
    exec .nop s = .next s

/-- The command rows where no stimulus is in store: each offers its frame in one piece, and writes what
its rule writes with the send (40_serial_link.md R121, R130; 42_mode_fsm.md R226, R243, R246, R254).
That a row of the table stands for its rule's send is the model's reading (log entry 14). -/
def Obligations.CommandRowsSendTheirFrames : Prop :=
  ∀ s : State, s.quietPoints →
    (∀ c d, exec (.cmdFrame c d) s = .next (afterOffer s [0xFF, 0x46, 0x53, 0x02, c, d])) ∧
    exec .mcStatusReq s = .next (afterOffer { s with link := { s.link with tReq := ⟨true, s.now⟩ } }
      [0xFF, 0x46, 0x53, 0x02, s.cfg.mcStatusReq.cmd, s.cfg.mcStatusReq.data]) ∧
    exec .fcUnmute s = .next
      (afterOffer s [0xFF, 0x46, 0x53, 0x02, s.cfg.fcUnmute.cmd, s.cfg.fcUnmute.data]) ∧
    exec .fcSpotify s = .next { (afterOffer s
        [0xFF, 0x46, 0x53, 0x02, s.cfg.fcSpotify.cmd, s.cfg.fcSpotify.data]) with
      fsm := { s.fsm with tBlock := ⟨true, s.now⟩ } } ∧
    exec .fcSwitchSpotify s = .next { (afterOffer s
        [0xFF, 0x46, 0x53, 0x02, s.cfg.fcSwitchSpotify.cmd, s.cfg.fcSwitchSpotify.data]) with
      fsm := { s.fsm with tBlock := ⟨true, s.now⟩ } } ∧
    exec .fcBt s = .next { (afterOffer s
        [0xFF, 0x46, 0x53, 0x02, s.cfg.fcBt.cmd, s.cfg.fcBt.data]) with
      fsm := { s.fsm with tBlock := ⟨true, s.now⟩ } } ∧
    exec .fcStandby s = .next { (afterOffer s
        [0xFF, 0x46, 0x53, 0x02, s.cfg.fcStandby.cmd, s.cfg.fcStandby.data]) with
      fsm := { s.fsm with tBlock := ⟨true, s.now⟩ } } ∧
    exec .fcVolUp s = .next { (afterOffer s
        [0xFF, 0x46, 0x53, 0x02, s.cfg.fcVolUp.cmd, s.cfg.fcVolUp.data]) with
      link := { s.link with tEcho := ⟨true, s.now⟩ } } ∧
    exec .fcVolDown s = .next { (afterOffer s
        [0xFF, 0x46, 0x53, 0x02, s.cfg.fcVolDown.cmd, s.cfg.fcVolDown.data]) with
      link := { s.link with tEcho := ⟨true, s.now⟩ } } ∧
    exec .fcFactoryReset s = .next { (afterOffer s
        [0xFF, 0x46, 0x53, 0x02, s.cfg.fcFactoryReset.cmd, s.cfg.fcFactoryReset.data]) with
      link := { s.link with ready := false } }

/-- Whatever is run at its interrupt points, a frame of the poll agent keeps its six bytes, in their
order, in what the sink has taken, in a script where nothing is dropped; other bytes may stand between
them (40_serial_link.md R121, R125). -/
def Obligations.InterruptedFrameKeepsItsBytes : Prop :=
  ∀ (c d : Byte) (s : State), s.scripted = true → s.io.envTxDrop = 0 →
    (∀ is ∈ s.input.ipSched, ∀ i ∈ is, ∀ n, i ≠ .txdrop n) →
    ∃ t bs, exec (.cmdFrame c d) s = .next t ∧ t.io.txLog = s.io.txLog ++ bs ∧
      [0xFF, 0x46, 0x53, 0x02, c, d].Sublist bs ∧ IpKeeps s t

/-- The spec's own interleaving (40_serial_link.md R125, 70_reset_and_hazards.md R311): a key record
completed at the interrupt point before the third byte of a status request puts its whole frame inside
the request's. The state is reset's, under CFG0, in a script (log entries 1, 6, 7). -/
def Obligations.RouterFrameInsidePollFrame : Prop :=
  ∃ t, exec .poll { State.reset with
      scripted := true
      bus := { State.reset.bus with state := .addrW, record := ⟨0x02, 0x80, 0⟩, rxCount := 2 }
      input := { State.reset.input with ipSched := [[], [], [.bwr 0x01]] } } = .next t ∧
    t.io.txLog = [0xFF, 0x46, 0xFF, 0x46, 0x53, 0x02, 0x03, 0x80, 0x53, 0x02, 0x01, 0x00]

/-! ### The synchronizer and the companion link -/

/-- The magic-byte scan, byte by byte: a mismatch stays where it is, a first magic byte restarts the
sequence (40_serial_link.md R112, R113). -/
def Obligations.MagicByteScan : Prop :=
  ∀ (b : Byte) (s : State),
    (s.sync.state = .awaitM1 → syncByte b s = (false, { s with sync := { s.sync with
      state := if b = 0xFF then .awaitM2 else .awaitM1 } })) ∧
    (s.sync.state = .awaitM2 → syncByte b s = (false, { s with sync := { s.sync with
      state := if b = 0x46 then .awaitM3 else .awaitM2 } })) ∧
    (s.sync.state = .awaitM3 → syncByte b s = (false, { s with sync := { s.sync with
      state := if b = 0x53 then .collect else if b = 0xFF then .awaitM2 else .awaitM3
      count := if b = 0x53 then 0 else s.sync.count } }))

/-- The length byte and the payload bytes: an oversized length drops the frame; the byte that makes the
count the length and one more completes it: the payload becomes the snapshot, byte by byte, the link is
ready and the scan starts anew; every other byte is stored and counted (40_serial_link.md R114, R115,
R117). A payload byte beyond the fourth is in no reachable state (R115), so the count is asked to be at
most 4. -/
def Obligations.CollectedBytes : Prop :=
  ∀ (b : Byte) (s : State), s.sync.state = .collect →
    (s.sync.count = 0 →
      (4 < b.toNat → syncByte b s = (false,
        { s with sync := { s.sync with state := .awaitM1, count := 0 } })) ∧
      (b = 0 → syncByte b s = (true,
        { s with sync := { s.sync with state := .awaitM1, len := 0, count := 0 }
                 link := { s.link with ready := true } })) ∧
      (b ≠ 0 → b.toNat ≤ 4 → syncByte b s = (false,
        { s with sync := { s.sync with len := BitVec.ofNat 3 b.toNat, count := 1 } }))) ∧
    (1 ≤ s.sync.count.toNat → s.sync.count.toNat ≤ 4 →
      (s.sync.count ≠ s.sync.len → ∃ t, syncByte b s = (false, t) ∧
        t = { s with sync := { s.sync with count := s.sync.count + 1, buf := t.sync.buf } } ∧
        ∀ k < 4, t.sync.buf.get k =
          if k + 1 = s.sync.count.toNat then b else s.sync.buf.get k) ∧
      (s.sync.count = s.sync.len → ∃ t, syncByte b s = (true, t) ∧
        t = { s with sync := { s.sync with state := .awaitM1, count := 0, buf := t.sync.buf }
                     link := { s.link with ready := true, cur := t.link.cur } } ∧
        (∀ k < 4, t.sync.buf.get k =
          if k + 1 = s.sync.count.toNat then b else s.sync.buf.get k) ∧
        ∀ k < 4, t.link.cur.get k =
          if k < s.sync.len.toNat then t.sync.buf.get k else s.link.cur.get k))

/-- SyncCall notes the tick and is then the loop of 40_serial_link.md R116: one interrupt point, false
where no byte is queued or the guard time is over, else one byte, true where it completes a frame, and
again. The model's fuel never shows (log entry 17). -/
def Obligations.SyncCallIsItsLoop : Prop :=
  ∀ (tCall : Nat) (s : State), ∃ t, t = interruptPoint s ∧
    syncCall s = syncLoop s.now (syncFuel s) s ∧
    syncLoop tCall (syncFuel s) s =
      match t.sync.rxFifo with
      | [] => (false, t)
      | b :: rest =>
        if syncGuardMs ≤ tickSub t.cfg t.now tCall then (false, t)
        else
          let r := syncByte b { t with sync := { t.sync with rxFifo := rest } }
          if r.1 then (true, r.2) else syncLoop tCall (syncFuel r.2) r.2

/-- The source's two properties of the synchronizer (40_serial_link.md R119). A status frame that arrives
in any chunks, from AWAIT_M1, is reported exactly once, with its bytes as the snapshot; an oversized one
is not reported, and scanning resumes at the byte after its length byte. -/
def Obligations.StatusFrameReportedOnce : Prop :=
  ∀ s : State, s.quietPoints → s.sync.state = .awaitM1 →
    (∀ (payload : List Byte) (chunks : List (List Byte)), payload.length ≤ 4 →
      s.sync.rxFifo = [] →
      chunks.flatten = [0xFF, 0x46, 0x53, BitVec.ofNat 8 payload.length] ++ payload →
      ∃ reports t, feedCalls chunks s = (reports, t) ∧
        reports.count true = 1 ∧
        (∀ k < 4, t.link.cur.get k = payload[k]?.getD (s.link.cur.get k)) ∧
        t.link.ready = true ∧ t.sync.state = .awaitM1 ∧ t.sync.rxFifo = []) ∧
    (∀ (b : Byte) (rest : List Byte), 4 < b.toNat →
      s.sync.rxFifo = [0xFF, 0x46, 0x53, b] ++ rest →
      syncCall s = syncCall { s with sync := { s.sync with rxFifo := rest, count := 0 } })

/-- The status request goes out when its timer is unarmed or the interval has passed, with the timer
armed first; else nothing happens (40_serial_link.md R130, 00_scope.md R12). -/
def Obligations.StatusRequestWhenDue : Prop :=
  ∀ s : State, ∃ elapsedMs,
    elapsedMs = (s.now + (2 ^ s.cfg.tickBits - s.link.tReq.start % 2 ^ s.cfg.tickBits))
      % 2 ^ s.cfg.tickBits ∧
    (s.link.tReq.armed = false ∨ s.cfg.statusReqIntervalMs ≤ elapsedMs →
      statusRequestCheck s = sendFramePoll s.cfg.mcStatusReq
        { s with link := { s.link with tReq := ⟨true, s.now⟩ } }) ∧
    (s.link.tReq.armed = true → elapsedMs < s.cfg.statusReqIntervalMs → statusRequestCheck s = s)

/-- The first differing snapshot byte alone is acted on, and the reactions to bytes 0 and 3 mirror them
(40_serial_link.md R131, R132, R135). -/
def Obligations.DiffActsOnFirstDifference : Prop :=
  ∀ s : State, ∃ t, t = interruptPoint s ∧
    (s.link.cur.b0 ≠ s.link.prev.b0 →
      diff s = { t with
        mem := t.mem.write s.cfg.regWifiBt.val s.link.cur.b0
        link := { s.link with prev := { s.link.prev with b0 := s.link.cur.b0 } } }) ∧
    (s.link.cur.b0 = s.link.prev.b0 → s.link.cur.b1 ≠ s.link.prev.b1 → diff s = react1 s) ∧
    (s.link.cur.b0 = s.link.prev.b0 → s.link.cur.b1 = s.link.prev.b1 →
      s.link.cur.b2 ≠ s.link.prev.b2 → diff s = react2 s) ∧
    (s.link.cur.b0 = s.link.prev.b0 → s.link.cur.b1 = s.link.prev.b1 →
      s.link.cur.b2 = s.link.prev.b2 → s.link.cur.b3 ≠ s.link.prev.b3 →
      diff s = { t with
        mem := t.mem.write s.cfg.regError.val s.link.cur.b3
        link := { s.link with prev := { s.link.prev with b3 := s.link.cur.b3 } } }) ∧
    (s.link.cur = s.link.prev → diff s = s)

/-- The reactions to bytes 1 and 2 (40_serial_link.md R133, R134; 30_encoding.md R85): the mirrors, the
module's mode event and its three gates, the volume and its one event in flight outside the echo
window. -/
def Obligations.ModeAndVolumeReactions : Prop :=
  ∀ s : State,
    (∃ t u, t = interruptPoint s ∧
      u = interruptPoint { t with
        mem := t.mem.write s.cfg.regMode.val ((modeNibOf s.cfg s.link.cur.b1).zeroExtend 8) } ∧
      react1 s = { u with
        mem := u.mem.write s.cfg.regSpotify.val ((spotifyNibOf s.cfg s.link.cur.b1).zeroExtend 8)
        fsm := { u.fsm with
          event :=
            if modeNibOf s.cfg s.link.cur.b1 ≠ modeNibOf s.cfg s.link.prev.b1 ∧
              s.cfg.fsControlModeFromModule = true ∧ inWifiSetup s.cfg s.link.cur = false
            then 0x04 else u.fsm.event }
        link := { s.link with prev := { s.link.prev with b1 := s.link.cur.b1 } } }) ∧
    (∃ t, t = interruptPoint s ∧
      react2 s =
        if running s.cfg t.now s.link.tEcho s.cfg.volEchoMs then { t with
          mem := t.mem.write s.cfg.regVolumeMute.val s.link.cur.b2
          link := { s.link with prev := { s.link.prev with b2 := s.link.cur.b2 } } }
        else { t with
          mem := t.mem.write s.cfg.regVolumeMute.val s.link.cur.b2
          fsm := { t.fsm with
            volume := s.link.cur.b2.extractLsb' 0 7
            event := if s.link.volInFlight then t.fsm.event else 0x07 }
          link := { s.link with
            volInFlight := true, prev := { s.link.prev with b2 := s.link.cur.b2 } } })

/-- A POLL, whatever is run at its interrupt points, lets at most one byte of the previous snapshot catch
up with the current one (40_serial_link.md R131, R136). -/
def Obligations.PollCatchesUpAtMostOneByte : Prop :=
  ∀ s : State, ∃ t, exec .poll s = .next t ∧
    (t.link.prev = s.link.prev ∨
     t.link.prev = { s.link.prev with b0 := t.link.cur.b0 } ∨
     t.link.prev = { s.link.prev with b1 := t.link.cur.b1 } ∨
     t.link.prev = { s.link.prev with b2 := t.link.cur.b2 } ∨
     t.link.prev = { s.link.prev with b3 := t.link.cur.b3 })

/-- What a POLL's link step does (40_serial_link.md R129, R130, R116, R117, R131 to R135). Whatever is run
at the interrupt points, a POLL is the link step, an interrupt point and the dispatcher (42_mode_fsm.md
R210), and the link step runs the diff exactly when its SyncCall completed a frame. With no stimulus in
store: where no byte is queued it is the status request, when due; where a whole status frame is queued,
the request comes first, the frame is taken and the bytes after it are left, the previous snapshot catches
up with the new one in the first byte that differs, with that byte's mirror, and the event of that byte's
reaction stands in the slot the dispatcher then latches. -/
def Obligations.PollTakesQueuedStatusFrame : Prop :=
  (∀ s : State, ∃ r, r = syncCall (statusRequestCheck s) ∧
    linkStep s = (if r.1 = true then diff r.2 else r.2) ∧
    exec .poll s = .next (dispatch (interruptPoint (linkStep s)))) ∧
  (∀ s : State, s.quietPoints → s.sync.rxFifo = [] →
    exec .poll s = .next (dispatch (afterRequest s))) ∧
  (∀ (payload rest : List Byte) (s : State), payload.length ≤ 4 → s.quietPoints →
    s.sync.state = .awaitM1 →
    s.sync.rxFifo = [0xFF, 0x46, 0x53, BitVec.ofNat 8 payload.length] ++ payload ++ rest →
    ∃ b u t,
      b = { afterRequest s with
        sync := { s.sync with
          rxFifo := rest, len := BitVec.ofNat 3 payload.length, count := 0, buf := b.sync.buf }
        link := { (afterRequest s).link with ready := true, cur := b.link.cur } } ∧
      (∀ k < 4, b.sync.buf.get k = payload[k]?.getD (s.sync.buf.get k)) ∧
      (∀ k < 4, b.link.cur.get k = payload[k]?.getD (s.link.cur.get k)) ∧
      u = diff b ∧ u = linkStep s ∧
      u.link.cur = b.link.cur ∧
      u.link.prev =
        (if b.link.cur.b0 ≠ s.link.prev.b0 then { s.link.prev with b0 := b.link.cur.b0 }
        else if b.link.cur.b1 ≠ s.link.prev.b1 then { s.link.prev with b1 := b.link.cur.b1 }
        else if b.link.cur.b2 ≠ s.link.prev.b2 then { s.link.prev with b2 := b.link.cur.b2 }
        else if b.link.cur.b3 ≠ s.link.prev.b3 then { s.link.prev with b3 := b.link.cur.b3 }
        else s.link.prev) ∧
      u.mem =
        (if b.link.cur.b0 ≠ s.link.prev.b0 then s.mem.write s.cfg.regWifiBt.val b.link.cur.b0
        else if b.link.cur.b1 ≠ s.link.prev.b1 then
          (s.mem.write s.cfg.regMode.val ((modeNibOf s.cfg b.link.cur.b1).zeroExtend 8)).write
            s.cfg.regSpotify.val ((spotifyNibOf s.cfg b.link.cur.b1).zeroExtend 8)
        else if b.link.cur.b2 ≠ s.link.prev.b2 then
          s.mem.write s.cfg.regVolumeMute.val b.link.cur.b2
        else if b.link.cur.b3 ≠ s.link.prev.b3 then s.mem.write s.cfg.regError.val b.link.cur.b3
        else s.mem) ∧
      u.fsm.event =
        (if b.link.cur.b0 ≠ s.link.prev.b0 then s.fsm.event
        else if b.link.cur.b1 ≠ s.link.prev.b1 then
          if modeNibOf s.cfg b.link.cur.b1 ≠ modeNibOf s.cfg s.link.prev.b1 ∧
            s.cfg.fsControlModeFromModule = true ∧ inWifiSetup s.cfg b.link.cur = false
          then 0x04 else s.fsm.event
        else if b.link.cur.b2 ≠ s.link.prev.b2 then
          if running s.cfg s.now s.link.tEcho s.cfg.volEchoMs = true ∨ s.link.volInFlight = true
          then s.fsm.event else 0x07
        else s.fsm.event) ∧
      exec .poll s = .next t ∧ t = dispatch u ∧
      (∀ k < 4, t.link.cur.get k = payload[k]?.getD (s.link.cur.get k)) ∧
      t.link.prev = u.link.prev ∧
      t.sync.rxFifo = rest ∧ t.sync.state = .awaitM1 ∧
      (¬ (s.fsm.mode = .factoryReset ∧ s.fsm.tasks.factoryReset = .init) → t.link.ready = true))

/-! ### The mode state machine, POLL by POLL -/

/-- POLL at Stop, no stimulus in store: whatever the link step made of the state, the mode's exit action,
then Idle and the next mode; the end of the POLL goes by the mode and the event latched before, the event
being the one the link step left (42_mode_fsm.md R210, R212, R217, R229, R232, R236, R242, R246, R250). -/
def Obligations.PollAtStopLeavesTheMode : Prop :=
  ∀ s u : State, s.quietPoints → u = linkStep s → u.fsm.tasks.get u.fsm.mode = .stop →
    u.fsm.mode ≠ .idle →
    exec .poll s = .next (pollEnd u.fsm.mode u.fsm.event (exitAction u))

/-- POLL at Idle: the mode goes to Init; Booting waits for the link; the Idle mode is inert
(42_mode_fsm.md R210, R212, R215, R219, R227). The link step's state and the end of the POLL are as at
Stop. -/
def Obligations.PollAtIdleEntersInit : Prop :=
  ∀ s u : State, s.quietPoints → u = linkStep s → u.fsm.tasks.get u.fsm.mode = .idle →
    exec .poll s = .next (pollEnd u.fsm.mode u.fsm.event
      (if u.fsm.mode = .idle ∨ (u.fsm.mode = .booting ∧ u.link.ready = false) then u
      else { u with fsm := { u.fsm with tasks := u.fsm.tasks.set u.fsm.mode .init } }))

/-- POLL at Init: the entry action of each mode, its command unless the module announced the mode, and
Run (42_mode_fsm.md R210, R212, R227, R231, R233, R238, R243, R248). The link step's state and the end of
the POLL are as at Stop. -/
def Obligations.PollAtInitRunsEntryAction : Prop :=
  ∀ s u : State, s.quietPoints → u = linkStep s → u.fsm.tasks.get u.fsm.mode = .init →
    u.fsm.mode ≠ .idle →
    exec .poll s = .next (pollEnd u.fsm.mode u.fsm.event (entryAction u))

/-- POLL at Run, and NetworkConfig at Pause: Booting's settle time, the events of the user modes, the
grace timeout, the reconnection pause, the end of a factory reset, and Standby's one event
(42_mode_fsm.md R210, R212, R229, R232, R234, R239, R241, R245, R249). The link step's state and the end
of the POLL are as at Stop: the event the mode function reads is the one the link step left. -/
def Obligations.PollAtRunHandlesTheTick : Prop :=
  ∀ s u : State, s.quietPoints → u = linkStep s →
    (u.fsm.tasks.get u.fsm.mode = .run → u.fsm.mode ≠ .idle →
      exec .poll s = .next (pollEnd u.fsm.mode u.fsm.event (runAction u.fsm.event u))) ∧
    (u.fsm.tasks.get u.fsm.mode = .pause → u.fsm.mode = .networkConfig →
      exec .poll s = .next (pollEnd u.fsm.mode u.fsm.event
        (if reconnErr u.cfg u.link.cur then u
        else { u with fsm := { u.fsm with tasks := { u.fsm.tasks with networkConfig := .run } } })))

/-- The three events of the user modes, in Run: an accepted toggle, module mode and power event request
their mode through Stop; a vetoed, debounced, blocked or pointless one changes nothing. FactoryReset's
toggle has the same veto and debounce and requests SpotifyConnect (42_mode_fsm.md R216, R220, R221, R222,
R224, R225; R245). -/
def Obligations.UserModeEvents : Prop :=
  ∀ s : State, s.fsm.tasks.get s.fsm.mode = .run →
    (s.fsm.mode ∈ [.bluetoothA2DP, .spotifyConnect, .networkConfig, .factoryReset] → toggle s =
      if s.fsm.scanInProgress = true ∨ expired s.cfg s.now s.fsm.tDebounce s.cfg.debounceMs = false
      then s
      else { s with fsm := { s.fsm with
        tDebounce := ⟨true, s.now⟩
        fromModule := false
        nextMode :=
          if s.fsm.mode = .bluetoothA2DP then .spotifyConnect
          else if s.fsm.mode = .spotifyConnect then .bluetoothA2DP
          else if s.fsm.mode = .factoryReset then .spotifyConnect
          else if wifiConnected s.cfg s.link.cur then .spotifyConnect else .bluetoothA2DP
        tasks := s.fsm.tasks.set s.fsm.mode .stop } }) ∧
    (s.fsm.mode ∈ [.bluetoothA2DP, .spotifyConnect, .networkConfig] →
    runEvents 0x03 s = toggle s ∧
    (∀ m, moduleModeOf s.cfg (modeNibOf s.cfg s.link.cur.b1) = some m → m ≠ s.fsm.mode →
      expired s.cfg s.now s.fsm.tBlock s.cfg.blockMs = true →
      runEvents 0x04 s = { s with fsm := { s.fsm with
        prevMode := if m = .standby then s.fsm.mode else s.fsm.prevMode
        fromModule := true
        nextMode := m
        tasks := s.fsm.tasks.set s.fsm.mode .stop } }) ∧
    ((expired s.cfg s.now s.fsm.tBlock s.cfg.blockMs = false ∨
      moduleModeOf s.cfg (modeNibOf s.cfg s.link.cur.b1) = none ∨
      moduleModeOf s.cfg (modeNibOf s.cfg s.link.cur.b1) = some s.fsm.mode) →
      runEvents 0x04 s = s) ∧
    runEvents 0x05 s = { s with fsm := { s.fsm with
      prevMode := s.fsm.mode
      fromModule := false
      nextMode := .standby
      tasks := s.fsm.tasks.set s.fsm.mode .stop } } ∧
    (∀ ev, ev ≠ 0x03 → ev ≠ 0x04 → ev ≠ 0x05 → runEvents ev s = s))

/-- The grace timer of SpotifyConnect and the switch command of NetworkConfig, in Run (42_mode_fsm.md
R235, R240), the latter where no stimulus is in store. -/
def Obligations.GraceAndOfflineSwitch : Prop :=
  ∀ s : State,
    (s.fsm.mode = .spotifyConnect → s.fsm.tasks.spotifyConnect = .run →
      grace s =
        if wifiConnected s.cfg s.link.cur then
          { s with fsm := { s.fsm with tGrace := { s.fsm.tGrace with armed := false } } }
        else if s.fsm.tGrace.armed = false then
          { s with fsm := { s.fsm with tGrace := ⟨true, s.now⟩ } }
        else if s.cfg.spotifyGraceMs ≤ elapsed s.cfg s.now s.fsm.tGrace then { s with
          fsm := { s.fsm with
            tGrace := { s.fsm.tGrace with armed := false }
            fromModule := false
            nextMode := .networkConfig
            tasks := { s.fsm.tasks with spotifyConnect := .stop } } }
        else s) ∧
    (s.quietPoints →
      switchWhenOffline s =
        if wifiConnected s.cfg s.link.cur ∨ inWifiSetup s.cfg s.link.cur then
          { s with fsm := { s.fsm with netcfgDiscLatch := false } }
        else if s.fsm.netcfgDiscLatch then s
        else { (afterOffer s
            [0xFF, 0x46, 0x53, 0x02, s.cfg.fcSwitchSpotify.cmd, s.cfg.fcSwitchSpotify.data]) with
          fsm := { s.fsm with tBlock := ⟨true, s.now⟩, netcfgDiscLatch := true } })

/-- What the tail does with the event of the tick, where no stimulus is in store: a volume key sends its
frame and opens the echo window, a factory-reset event requests FactoryReset where a change can be
requested and none is under way; in Standby neither; and the acknowledgment, the counter and its mirror
in every mode (42_mode_fsm.md R253 to R257). -/
def Obligations.TailActsOnTheEvent : Prop :=
  ∀ (m0 : Mode) (ev : Byte) (s : State), s.quietPoints → tail m0 ev s = tailAction m0 ev s

/-- Whatever is run at its interrupt points, a POLL leaves the event slot empty and the diagnostic
counter one higher (42_mode_fsm.md R214, R257); and where nothing is run there, it leaves the tick, the
bus slave, the indicator, both marks, the bus histories and every register that is no mirror alone
(60_exceptions.md R286, 41_register_bus.md R161). The event is latched where the dispatcher begins: with
every POST struck from the points still to come there, the POLL ends in the same state, whatever else is
run at them (42_mode_fsm.md R212, R214, 70_reset_and_hazards.md R312). -/
def Obligations.PollClearsCountsAndFrames : Prop :=
  ∀ s : State, ∃ t, exec .poll s = .next t ∧
    t.fsm.event = 0 ∧ t.fsm.diagCounter = s.fsm.diagCounter + 1 ∧
    (∃ v, v = interruptPoint (linkStep s) ∧ t = dispatch v ∧
      dispatch (withoutPosts v) = withoutPosts t) ∧
    (s.quietPoints →
      t.now = s.now ∧ t.bus = s.bus ∧ t.indicator = s.indicator ∧
      t.faultRegfileOob = s.faultRegfileOob ∧ t.refused = s.refused ∧
      t.io.rdLog = s.io.rdLog ∧ t.io.ackLog = s.io.ackLog ∧ t.input = s.input ∧
      (s.mem.wf = true →
        (s.cfg.configDiagCounter = true →
          t.mem.read s.cfg.regAuxDiag.val = s.fsm.diagCounter + 1) ∧
        ∀ a, a ∉ [s.cfg.regWifiBt.val, s.cfg.regMode.val, s.cfg.regSpotify.val,
          s.cfg.regVolumeMute.val, s.cfg.regError.val, s.cfg.regBootFlags.val,
          s.cfg.regAuxDiag.val] → t.mem.read a = s.mem.read a))

/-- In Standby/Run a POLL whose latched event is not power leaves the mode, its next and previous modes and
every sub-state, whatever is run at its interrupt points; the latched event is power only if it was posted
so, before or at an interrupt point, for the link posts none. The Idle mode is left by no event at all
(42_mode_fsm.md R219, R247, R249; R212). -/
def Obligations.StandbyHeedsPowerAlone : Prop :=
  ∀ s : State,
    (s.fsm.mode = .idle → s.fsm.tasks.idle = .idle → ∃ t, exec .poll s = .next t ∧
      t.fsm.mode = s.fsm.mode ∧ t.fsm.nextMode = s.fsm.nextMode ∧
      t.fsm.prevMode = s.fsm.prevMode ∧ t.fsm.tasks = s.fsm.tasks) ∧
    (s.fsm.mode = .standby → s.fsm.tasks.standby = .run →
      (interruptPoint (linkStep s)).fsm.event ≠ 0x05 → ∃ t, exec .poll s = .next t ∧
      t.fsm.mode = s.fsm.mode ∧ t.fsm.nextMode = s.fsm.nextMode ∧
      t.fsm.prevMode = s.fsm.prevMode ∧ t.fsm.tasks = s.fsm.tasks) ∧
    (s.fsm.event ≠ 0x05 → (∀ is ∈ s.input.ipSched, .post 0x05 ∉ is) →
      (interruptPoint (linkStep s)).fsm.event ≠ 0x05)

/-- A requested change, POLL by POLL (42_mode_fsm.md R217, R262): the first leaves the old mode, the second
only moves the new one to Init, the third does its entry action and reaches Run, and the Run handler first
runs at the fourth. Standby's own exit picks the mode that follows (R250). The link is quiet and the
invariant holds; Booting waits for the link and the Idle mode is inert, so a change to those is not
asked. -/
def Obligations.RequestedModeRunsAfterThreePolls : Prop :=
  ∀ (s : State) (m : Mode), Inv s → s.linkQuiet → s.fsm.tasks.get s.fsm.mode = .stop →
    m = (if s.fsm.mode = .standby then
        (if inWifiSetup s.cfg s.link.cur then .networkConfig else s.fsm.prevMode)
      else s.fsm.nextMode) →
    m ≠ .idle → m ≠ .booting →
    ∃ t u v, exec .poll s = .next t ∧ exec .poll t = .next u ∧ exec .poll u = .next v ∧
      t.fsm.mode = m ∧ t.fsm.tasks.get m = .idle ∧
      u.fsm.mode = m ∧ u.fsm.tasks.get m = .init ∧
      v.fsm.mode = m ∧ v.fsm.tasks.get m = .run ∧
      u = tickEnd 0 { t with fsm := { t.fsm with tasks := t.fsm.tasks.set m .init } } ∧
      v = tickEnd 0 (entryAction u) ∧
      exec .poll v = .next (tickEnd 0 (runAction 0 v))

/-- The boot property of 42_mode_fsm.md R229 and R230: in Booting/Run a POLL stops the sub-state only
once the settle period is over, and the mode that follows is one of SpotifyConnect, Standby and
NetworkConfig, in every configuration, unless a factory reset was requested (R255). -/
def Obligations.BootingSelectsAStartupMode : Prop :=
  ∀ s : State, s.linkQuiet → s.fsm.mode = .booting → s.fsm.tasks.booting = .run →
    s.fsm.event ≠ 0x06 →
    ∃ t, exec .poll s = .next t ∧ t.fsm.mode = .booting ∧
      (elapsed s.cfg s.now s.fsm.tBoot < s.cfg.bootSettleMs → t.fsm.tasks.booting = .run) ∧
      (s.cfg.bootSettleMs ≤ elapsed s.cfg s.now s.fsm.tBoot →
        t.fsm.tasks.booting = .stop ∧
        t.fsm.nextMode ∈ [.spotifyConnect, .standby, .networkConfig])

/-! ### Whole-machine rules -/

/-- Every instruction runs to a next state from every state, whatever is run at its interrupt points: the
block never halts and raises no exception (60_exceptions.md R270, 70_reset_and_hazards.md R331). -/
def Obligations.EveryInstructionCompletes : Prop :=
  ∀ (i : Instr) (s : State), ∃ t, exec i s = .next t

/-- Only POLL and RESET move the mode machine, the snapshots and the synchronizer (42_mode_fsm.md R210,
40_serial_link.md R137): every other instruction leaves the snapshots, of the synchronizer all but the
FIFO, and of the mode machine all but its two inputs and the blocking timer that a command row arms. -/
def Obligations.OnlyPollMovesTheModeMachine : Prop :=
  ∀ (i : Instr) (s : State), i ≠ .poll → i ≠ .reset → ∃ t, exec i s = .next t ∧
    t.link.cur = s.link.cur ∧ t.link.prev = s.link.prev ∧
    t.link.volInFlight = s.link.volInFlight ∧
    t.sync = { s.sync with rxFifo := t.sync.rxFifo } ∧
    t.fsm = { s.fsm with event := t.fsm.event, scanInProgress := t.fsm.scanInProgress,
                         tBlock := t.fsm.tBlock }

/-- Only the tick stimuli and RESET move `now` (40_serial_link.md R152), where no tick stimulus is run at
an interrupt point. -/
def Obligations.NowMovesOnlyByTicks : Prop :=
  ∀ (i : Instr) (s : State),
    (∀ is ∈ s.input.ipSched, ∀ j ∈ is, (∀ n, j ≠ .tick n) ∧ ∀ n, j ≠ .tick100 n) →
    (∀ n, i ≠ .tick n) → (∀ n, i ≠ .tick100 n) → (∀ w, i ≠ .wait w) → i ≠ .reset →
    ∃ t, exec i s = .next t ∧ t.now = s.now

/-- The two marks are sticky: RESET alone clears them (10_state.md R46); and no instruction changes the
configuration (20_memory.md R76, 70_reset_and_hazards.md R332). -/
def Obligations.MarksStickAndConfigurationStays : Prop :=
  ∀ (i : Instr) (s : State), ∃ t, exec i s = .next t ∧ t.cfg = s.cfg ∧
    (i ≠ .reset →
      (s.faultRegfileOob = true → t.faultRegfileOob = true) ∧
      (s.refused = true → t.refused = true))

/-- What the bus agent does at the interrupt points of a POLL changes nothing the poll agent decides
(60_exceptions.md R286): two states that agree on the configuration, the tick, the synchronizer, the
link and the mode machine, and whose schedules differ in bus stimuli and TXDROP alone, agree on all of
that after the POLL. -/
def Obligations.BusStimuliDoNotSteerThePoll : Prop :=
  ∀ s s' : State,
    s.cfg = s'.cfg → s.now = s'.now → s.sync = s'.sync → s.link = s'.link → s.fsm = s'.fsm →
    s.input.ipSched.map (fun is => is.filter IpStim.environment) =
      s'.input.ipSched.map (fun is => is.filter IpStim.environment) →
    ∃ t t', exec .poll s = .next t ∧ exec .poll s' = .next t' ∧
      t.now = t'.now ∧ t.sync = t'.sync ∧ t.link = t'.link ∧ t.fsm = t'.fsm

/-- The invariant of Safety.lean is kept by every step that answers a next state, from every state. -/
def Obligations.StepKeepsTheStateInvariant : Prop :=
  ∀ s t : State, Inv s → step s = .next t → Inv t

/-- The reset state has the invariant and the factory flag's life (Safety.lean), under a configuration that
names FactoryReset nowhere, and no command frame is set to be sent by itself. That the configuration is
CFG0 is the model's choice (log entry 1), and so is what the model's own fields hold (log entries 5 to 9,
14). -/
def Obligations.ResetStateIsInvariant : Prop :=
  Inv State.reset ∧ FactoryFlag State.reset ∧ Cfg.noFactoryTarget State.reset.cfg ∧
    State.reset.input.issue = none

/-- `factory_in_progress` is set exactly while a factory reset is requested or under way (42_mode_fsm.md
R244, R246, R255), in every configuration that names FactoryReset nowhere. -/
def Obligations.StepKeepsTheFactoryFlag : Prop :=
  ∀ s t : State, Cfg.noFactoryTarget s.cfg → Inv s → FactoryFlag s → step s = .next t → FactoryFlag t

/-! ### Encodings and the step -/

/-- Decode and encode agree, in every configuration: a well-formed instruction that no more specific or
earlier row shadows (log entry 11) is written as one transaction, which decodes to it. -/
def Obligations.EncodedInstructionDecodesToItself : Prop :=
  ∀ (c : Cfg) (i : Instr), i.wf = true → isPrimary c i = true →
    ∃ x, encode c i = [x] ∧ decode c x = .ok i

/-- And the other way round: whatever the decoder accepts is a well-formed instruction whose own encoding
is the transaction it was read from. -/
def Obligations.DecodedTransactionReencodes : Prop :=
  ∀ (c : Cfg) (x : Wire) (i : Instr), decode c x = .ok i →
    i.wf = true ∧ isPrimary c i = true ∧ encode c i = [x]

/-- A few words written out from the encoding tables decode to what they stand for (30_encoding.md R80,
R82, R87, R90, R93, R94, R96, R97). The codes and the register map are CFG0's (log entry 1); which row a
word that several rows share decodes to, the more specific one, is the model's choice (log entry 11). -/
def Obligations.HandWrittenWordsDecode : Prop :=
  decode cfg0 (.stim 0x10FF) = .ok (.rxb 0xFF) ∧
  decode cfg0 (.stim 0x1105) = .ok .postPower ∧
  decode cfg0 (.stim 0x2280) = .ok (.bwr 0x80) ∧
  decode cfg0 (.stim 0x2401) = .ok (.bstop true) ∧
  decode cfg0 (.stim 0x3000) = .ok .poll ∧
  decode cfg0 (.stim 0x3001) = .ok (.illegal 0x3001) ∧
  decode cfg0 (.record 0x028001) = .ok (.keyMute 0x80) ∧
  decode cfg0 (.record 0x0A2000) = .ok (.recVolumeSet 0x20 0x00) ∧
  decode cfg0 (.cmd 0xFF4653020100) = .ok .mcStatusReq ∧
  decode cfg0 (.status [0xFF, 0x46, 0x53, 0x01, 0x21]) = .ok (.statusFrame [0x21])

/-- One step takes the oldest pending input: where it decodes to an instruction, the step is that
instruction at the state with the input taken. Bytes that are no status frame arrive all the same; any
other input of no format, a command frame among them, only sets the mark. Where none is pending, the step
waits. A command frame set to be sent by itself is sent. That inputs wait in the state, what becomes of an
input of no format, and the sending by itself are the model's (log entries 8, 15, 14). -/
def Obligations.StepRunsTheDecodedInstruction : Prop :=
  ∀ s : State,
    (s.input.issue = none →
      (∀ x rest i, s.input.pending = x :: rest → decode s.cfg x = .ok i → (∀ w, x ≠ .cmd w) →
        i.wf = true ∧
        step s = exec i { s with input := { s.input with pending := rest } }) ∧
      (∀ bs rest e, s.input.pending = .status bs :: rest → decode s.cfg (.status bs) = .error e →
        step s = exec (.rxseq bs) { s with input := { s.input with pending := rest } }) ∧
      (∀ x rest, s.input.pending = x :: rest → ((∃ w, x = .cmd w) ∨ ∃ n w, x = .unknown n w) →
        step s = .next { s with refused := true, input := { s.input with pending := rest } }) ∧
      (s.input.pending = [] → step s = .next s)) ∧
    (∀ w, s.input.issue = some w →
      (∀ i, decode s.cfg (.cmd w) = .ok i →
        i.wf = true ∧ step s = exec i { s with input := { s.input with issue := none } }) ∧
      (∀ e, decode s.cfg (.cmd w) = .error e →
        step s = .next { s with refused := true, input := { s.input with issue := none } }))

/-- FSLINK is driven by its stimuli. Presenting an instruction's own words runs it: for every well-formed
instruction that is written without a command frame, the words taken one by one leave the state the
instruction leaves (30_encoding.md R91, R92); a command frame that no earlier row of the same frame claims
(log entry 11), set to be sent by itself (log entry 14), leaves the state its row leaves. Every step in
which no frame is so set is a run of R90 words, of none where nothing is pending, and sets none. And
every run over presented transactions of any kind, command frames among them, is a run of R90 words: the
state changes in response to the stimuli of R90 alone (00_scope.md R1). -/
def Obligations.OwnWordsRunTheInstruction : Prop :=
  (∀ (i : Instr) (s : State), i.wf = true → s.input.pending = [] → s.input.issue = none →
    (∀ w, .cmd w ∉ encode s.cfg i) →
    ∃ t, exec i s = .next t ∧ runWires (encode s.cfg i) s = some t) ∧
  (∀ (i : Instr) (s : State) (w : FrameWord), i.wf = true → s.input.issue = none →
    .cmd w ∈ encode s.cfg i → isPrimary s.cfg i = true →
    ∃ t, exec i s = .next t ∧
      step { s with input := { s.input with issue := some w } } = .next t) ∧
  (∀ s : State, s.input.issue = none → ∃ (ws : List StimWord) (t : State),
    step s = .next t ∧
    runInstrs (ws.map decodeStim)
      { s with input := { s.input with pending := s.input.pending.tail } } = some t ∧
    (s.input.pending = [] → ws = []) ∧
    t.input.issue = none) ∧
  (∀ (xs : List Wire) (s : State), s.input.pending = [] → s.input.issue = none →
    ∃ (ws : List StimWord) (t : State),
      runWires xs s = some t ∧ runInstrs (ws.map decodeStim) s = some t ∧
      t.input.pending = [] ∧ t.input.issue = none)
end

