-- ==== Sys2Proof/Laws/State.lean ====
section
/-! SUPPORT. Laws/State.lean: what each replacement of a group of the state leaves, field by field.
All by rfl, so that no proof unfolds a record update. -/

namespace Sys2Proof.Machine

variable (s : State)

@[simp] theorem State.withNow_cfg (v : Nat) : (s.withNow v).cfg = s.cfg := rfl
@[simp] theorem State.withNow_now (v : Nat) : (s.withNow v).now = v := rfl
@[simp] theorem State.withNow_sync (v : Nat) : (s.withNow v).sync = s.sync := rfl
@[simp] theorem State.withNow_link (v : Nat) : (s.withNow v).link = s.link := rfl
@[simp] theorem State.withNow_mem (v : Nat) : (s.withNow v).mem = s.mem := rfl
@[simp] theorem State.withNow_indicator (v : Nat) : (s.withNow v).indicator = s.indicator := rfl
@[simp] theorem State.withNow_bus (v : Nat) : (s.withNow v).bus = s.bus := rfl
@[simp] theorem State.withNow_fsm (v : Nat) : (s.withNow v).fsm = s.fsm := rfl
@[simp] theorem State.withNow_faultRegfileOob (v : Nat) : (s.withNow v).faultRegfileOob = s.faultRegfileOob := rfl
@[simp] theorem State.withNow_refused (v : Nat) : (s.withNow v).refused = s.refused := rfl
@[simp] theorem State.withNow_io (v : Nat) : (s.withNow v).io = s.io := rfl
@[simp] theorem State.withNow_input (v : Nat) : (s.withNow v).input = s.input := rfl
@[simp] theorem State.withNow_draws (v : Nat) : (s.withNow v).draws = s.draws := rfl
@[simp] theorem State.withNow_scripted (v : Nat) : (s.withNow v).scripted = s.scripted := rfl

@[simp] theorem State.withNow_withNow (v w : Nat) : (s.withNow v).withNow w = s.withNow w := rfl
@[simp] theorem State.withNow_self : s.withNow s.now = s := rfl

@[simp] theorem State.withSync_cfg (v : Sync) : (s.withSync v).cfg = s.cfg := rfl
@[simp] theorem State.withSync_now (v : Sync) : (s.withSync v).now = s.now := rfl
@[simp] theorem State.withSync_sync (v : Sync) : (s.withSync v).sync = v := rfl
@[simp] theorem State.withSync_link (v : Sync) : (s.withSync v).link = s.link := rfl
@[simp] theorem State.withSync_mem (v : Sync) : (s.withSync v).mem = s.mem := rfl
@[simp] theorem State.withSync_indicator (v : Sync) : (s.withSync v).indicator = s.indicator := rfl
@[simp] theorem State.withSync_bus (v : Sync) : (s.withSync v).bus = s.bus := rfl
@[simp] theorem State.withSync_fsm (v : Sync) : (s.withSync v).fsm = s.fsm := rfl
@[simp] theorem State.withSync_faultRegfileOob (v : Sync) : (s.withSync v).faultRegfileOob = s.faultRegfileOob := rfl
@[simp] theorem State.withSync_refused (v : Sync) : (s.withSync v).refused = s.refused := rfl
@[simp] theorem State.withSync_io (v : Sync) : (s.withSync v).io = s.io := rfl
@[simp] theorem State.withSync_input (v : Sync) : (s.withSync v).input = s.input := rfl
@[simp] theorem State.withSync_draws (v : Sync) : (s.withSync v).draws = s.draws := rfl
@[simp] theorem State.withSync_scripted (v : Sync) : (s.withSync v).scripted = s.scripted := rfl

@[simp] theorem State.withSync_withSync (v w : Sync) : (s.withSync v).withSync w = s.withSync w := rfl
@[simp] theorem State.withSync_self : s.withSync s.sync = s := rfl

@[simp] theorem State.withLink_cfg (v : Link) : (s.withLink v).cfg = s.cfg := rfl
@[simp] theorem State.withLink_now (v : Link) : (s.withLink v).now = s.now := rfl
@[simp] theorem State.withLink_sync (v : Link) : (s.withLink v).sync = s.sync := rfl
@[simp] theorem State.withLink_link (v : Link) : (s.withLink v).link = v := rfl
@[simp] theorem State.withLink_mem (v : Link) : (s.withLink v).mem = s.mem := rfl
@[simp] theorem State.withLink_indicator (v : Link) : (s.withLink v).indicator = s.indicator := rfl
@[simp] theorem State.withLink_bus (v : Link) : (s.withLink v).bus = s.bus := rfl
@[simp] theorem State.withLink_fsm (v : Link) : (s.withLink v).fsm = s.fsm := rfl
@[simp] theorem State.withLink_faultRegfileOob (v : Link) : (s.withLink v).faultRegfileOob = s.faultRegfileOob := rfl
@[simp] theorem State.withLink_refused (v : Link) : (s.withLink v).refused = s.refused := rfl
@[simp] theorem State.withLink_io (v : Link) : (s.withLink v).io = s.io := rfl
@[simp] theorem State.withLink_input (v : Link) : (s.withLink v).input = s.input := rfl
@[simp] theorem State.withLink_draws (v : Link) : (s.withLink v).draws = s.draws := rfl
@[simp] theorem State.withLink_scripted (v : Link) : (s.withLink v).scripted = s.scripted := rfl

@[simp] theorem State.withLink_withLink (v w : Link) : (s.withLink v).withLink w = s.withLink w := rfl
@[simp] theorem State.withLink_self : s.withLink s.link = s := rfl

@[simp] theorem State.withMem_cfg (v : Memory) : (s.withMem v).cfg = s.cfg := rfl
@[simp] theorem State.withMem_now (v : Memory) : (s.withMem v).now = s.now := rfl
@[simp] theorem State.withMem_sync (v : Memory) : (s.withMem v).sync = s.sync := rfl
@[simp] theorem State.withMem_link (v : Memory) : (s.withMem v).link = s.link := rfl
@[simp] theorem State.withMem_mem (v : Memory) : (s.withMem v).mem = v := rfl
@[simp] theorem State.withMem_indicator (v : Memory) : (s.withMem v).indicator = s.indicator := rfl
@[simp] theorem State.withMem_bus (v : Memory) : (s.withMem v).bus = s.bus := rfl
@[simp] theorem State.withMem_fsm (v : Memory) : (s.withMem v).fsm = s.fsm := rfl
@[simp] theorem State.withMem_faultRegfileOob (v : Memory) : (s.withMem v).faultRegfileOob = s.faultRegfileOob := rfl
@[simp] theorem State.withMem_refused (v : Memory) : (s.withMem v).refused = s.refused := rfl
@[simp] theorem State.withMem_io (v : Memory) : (s.withMem v).io = s.io := rfl
@[simp] theorem State.withMem_input (v : Memory) : (s.withMem v).input = s.input := rfl
@[simp] theorem State.withMem_draws (v : Memory) : (s.withMem v).draws = s.draws := rfl
@[simp] theorem State.withMem_scripted (v : Memory) : (s.withMem v).scripted = s.scripted := rfl

@[simp] theorem State.withMem_withMem (v w : Memory) : (s.withMem v).withMem w = s.withMem w := rfl
@[simp] theorem State.withMem_self : s.withMem s.mem = s := rfl

@[simp] theorem State.withIndicator_cfg (v : Bool) : (s.withIndicator v).cfg = s.cfg := rfl
@[simp] theorem State.withIndicator_now (v : Bool) : (s.withIndicator v).now = s.now := rfl
@[simp] theorem State.withIndicator_sync (v : Bool) : (s.withIndicator v).sync = s.sync := rfl
@[simp] theorem State.withIndicator_link (v : Bool) : (s.withIndicator v).link = s.link := rfl
@[simp] theorem State.withIndicator_mem (v : Bool) : (s.withIndicator v).mem = s.mem := rfl
@[simp] theorem State.withIndicator_indicator (v : Bool) : (s.withIndicator v).indicator = v := rfl
@[simp] theorem State.withIndicator_bus (v : Bool) : (s.withIndicator v).bus = s.bus := rfl
@[simp] theorem State.withIndicator_fsm (v : Bool) : (s.withIndicator v).fsm = s.fsm := rfl
@[simp] theorem State.withIndicator_faultRegfileOob (v : Bool) : (s.withIndicator v).faultRegfileOob = s.faultRegfileOob := rfl
@[simp] theorem State.withIndicator_refused (v : Bool) : (s.withIndicator v).refused = s.refused := rfl
@[simp] theorem State.withIndicator_io (v : Bool) : (s.withIndicator v).io = s.io := rfl
@[simp] theorem State.withIndicator_input (v : Bool) : (s.withIndicator v).input = s.input := rfl
@[simp] theorem State.withIndicator_draws (v : Bool) : (s.withIndicator v).draws = s.draws := rfl
@[simp] theorem State.withIndicator_scripted (v : Bool) : (s.withIndicator v).scripted = s.scripted := rfl

@[simp] theorem State.withIndicator_withIndicator (v w : Bool) : (s.withIndicator v).withIndicator w = s.withIndicator w := rfl
@[simp] theorem State.withIndicator_self : s.withIndicator s.indicator = s := rfl

@[simp] theorem State.withBus_cfg (v : Bus) : (s.withBus v).cfg = s.cfg := rfl
@[simp] theorem State.withBus_now (v : Bus) : (s.withBus v).now = s.now := rfl
@[simp] theorem State.withBus_sync (v : Bus) : (s.withBus v).sync = s.sync := rfl
@[simp] theorem State.withBus_link (v : Bus) : (s.withBus v).link = s.link := rfl
@[simp] theorem State.withBus_mem (v : Bus) : (s.withBus v).mem = s.mem := rfl
@[simp] theorem State.withBus_indicator (v : Bus) : (s.withBus v).indicator = s.indicator := rfl
@[simp] theorem State.withBus_bus (v : Bus) : (s.withBus v).bus = v := rfl
@[simp] theorem State.withBus_fsm (v : Bus) : (s.withBus v).fsm = s.fsm := rfl
@[simp] theorem State.withBus_faultRegfileOob (v : Bus) : (s.withBus v).faultRegfileOob = s.faultRegfileOob := rfl
@[simp] theorem State.withBus_refused (v : Bus) : (s.withBus v).refused = s.refused := rfl
@[simp] theorem State.withBus_io (v : Bus) : (s.withBus v).io = s.io := rfl
@[simp] theorem State.withBus_input (v : Bus) : (s.withBus v).input = s.input := rfl
@[simp] theorem State.withBus_draws (v : Bus) : (s.withBus v).draws = s.draws := rfl
@[simp] theorem State.withBus_scripted (v : Bus) : (s.withBus v).scripted = s.scripted := rfl

@[simp] theorem State.withBus_withBus (v w : Bus) : (s.withBus v).withBus w = s.withBus w := rfl
@[simp] theorem State.withBus_self : s.withBus s.bus = s := rfl

@[simp] theorem State.withFsm_cfg (v : Fsm) : (s.withFsm v).cfg = s.cfg := rfl
@[simp] theorem State.withFsm_now (v : Fsm) : (s.withFsm v).now = s.now := rfl
@[simp] theorem State.withFsm_sync (v : Fsm) : (s.withFsm v).sync = s.sync := rfl
@[simp] theorem State.withFsm_link (v : Fsm) : (s.withFsm v).link = s.link := rfl
@[simp] theorem State.withFsm_mem (v : Fsm) : (s.withFsm v).mem = s.mem := rfl
@[simp] theorem State.withFsm_indicator (v : Fsm) : (s.withFsm v).indicator = s.indicator := rfl
@[simp] theorem State.withFsm_bus (v : Fsm) : (s.withFsm v).bus = s.bus := rfl
@[simp] theorem State.withFsm_fsm (v : Fsm) : (s.withFsm v).fsm = v := rfl
@[simp] theorem State.withFsm_faultRegfileOob (v : Fsm) : (s.withFsm v).faultRegfileOob = s.faultRegfileOob := rfl
@[simp] theorem State.withFsm_refused (v : Fsm) : (s.withFsm v).refused = s.refused := rfl
@[simp] theorem State.withFsm_io (v : Fsm) : (s.withFsm v).io = s.io := rfl
@[simp] theorem State.withFsm_input (v : Fsm) : (s.withFsm v).input = s.input := rfl
@[simp] theorem State.withFsm_draws (v : Fsm) : (s.withFsm v).draws = s.draws := rfl
@[simp] theorem State.withFsm_scripted (v : Fsm) : (s.withFsm v).scripted = s.scripted := rfl

@[simp] theorem State.withFsm_withFsm (v w : Fsm) : (s.withFsm v).withFsm w = s.withFsm w := rfl
@[simp] theorem State.withFsm_self : s.withFsm s.fsm = s := rfl

@[simp] theorem State.withFault_cfg (v : Bool) : (s.withFault v).cfg = s.cfg := rfl
@[simp] theorem State.withFault_now (v : Bool) : (s.withFault v).now = s.now := rfl
@[simp] theorem State.withFault_sync (v : Bool) : (s.withFault v).sync = s.sync := rfl
@[simp] theorem State.withFault_link (v : Bool) : (s.withFault v).link = s.link := rfl
@[simp] theorem State.withFault_mem (v : Bool) : (s.withFault v).mem = s.mem := rfl
@[simp] theorem State.withFault_indicator (v : Bool) : (s.withFault v).indicator = s.indicator := rfl
@[simp] theorem State.withFault_bus (v : Bool) : (s.withFault v).bus = s.bus := rfl
@[simp] theorem State.withFault_fsm (v : Bool) : (s.withFault v).fsm = s.fsm := rfl
@[simp] theorem State.withFault_faultRegfileOob (v : Bool) : (s.withFault v).faultRegfileOob = v := rfl
@[simp] theorem State.withFault_refused (v : Bool) : (s.withFault v).refused = s.refused := rfl
@[simp] theorem State.withFault_io (v : Bool) : (s.withFault v).io = s.io := rfl
@[simp] theorem State.withFault_input (v : Bool) : (s.withFault v).input = s.input := rfl
@[simp] theorem State.withFault_draws (v : Bool) : (s.withFault v).draws = s.draws := rfl
@[simp] theorem State.withFault_scripted (v : Bool) : (s.withFault v).scripted = s.scripted := rfl

@[simp] theorem State.withFault_withFault (v w : Bool) : (s.withFault v).withFault w = s.withFault w := rfl
@[simp] theorem State.withFault_self : s.withFault s.faultRegfileOob = s := rfl

@[simp] theorem State.withRefused_cfg (v : Bool) : (s.withRefused v).cfg = s.cfg := rfl
@[simp] theorem State.withRefused_now (v : Bool) : (s.withRefused v).now = s.now := rfl
@[simp] theorem State.withRefused_sync (v : Bool) : (s.withRefused v).sync = s.sync := rfl
@[simp] theorem State.withRefused_link (v : Bool) : (s.withRefused v).link = s.link := rfl
@[simp] theorem State.withRefused_mem (v : Bool) : (s.withRefused v).mem = s.mem := rfl
@[simp] theorem State.withRefused_indicator (v : Bool) : (s.withRefused v).indicator = s.indicator := rfl
@[simp] theorem State.withRefused_bus (v : Bool) : (s.withRefused v).bus = s.bus := rfl
@[simp] theorem State.withRefused_fsm (v : Bool) : (s.withRefused v).fsm = s.fsm := rfl
@[simp] theorem State.withRefused_faultRegfileOob (v : Bool) : (s.withRefused v).faultRegfileOob = s.faultRegfileOob := rfl
@[simp] theorem State.withRefused_refused (v : Bool) : (s.withRefused v).refused = v := rfl
@[simp] theorem State.withRefused_io (v : Bool) : (s.withRefused v).io = s.io := rfl
@[simp] theorem State.withRefused_input (v : Bool) : (s.withRefused v).input = s.input := rfl
@[simp] theorem State.withRefused_draws (v : Bool) : (s.withRefused v).draws = s.draws := rfl
@[simp] theorem State.withRefused_scripted (v : Bool) : (s.withRefused v).scripted = s.scripted := rfl

@[simp] theorem State.withRefused_withRefused (v w : Bool) : (s.withRefused v).withRefused w = s.withRefused w := rfl
@[simp] theorem State.withRefused_self : s.withRefused s.refused = s := rfl

@[simp] theorem State.withIo_cfg (v : Io) : (s.withIo v).cfg = s.cfg := rfl
@[simp] theorem State.withIo_now (v : Io) : (s.withIo v).now = s.now := rfl
@[simp] theorem State.withIo_sync (v : Io) : (s.withIo v).sync = s.sync := rfl
@[simp] theorem State.withIo_link (v : Io) : (s.withIo v).link = s.link := rfl
@[simp] theorem State.withIo_mem (v : Io) : (s.withIo v).mem = s.mem := rfl
@[simp] theorem State.withIo_indicator (v : Io) : (s.withIo v).indicator = s.indicator := rfl
@[simp] theorem State.withIo_bus (v : Io) : (s.withIo v).bus = s.bus := rfl
@[simp] theorem State.withIo_fsm (v : Io) : (s.withIo v).fsm = s.fsm := rfl
@[simp] theorem State.withIo_faultRegfileOob (v : Io) : (s.withIo v).faultRegfileOob = s.faultRegfileOob := rfl
@[simp] theorem State.withIo_refused (v : Io) : (s.withIo v).refused = s.refused := rfl
@[simp] theorem State.withIo_io (v : Io) : (s.withIo v).io = v := rfl
@[simp] theorem State.withIo_input (v : Io) : (s.withIo v).input = s.input := rfl
@[simp] theorem State.withIo_draws (v : Io) : (s.withIo v).draws = s.draws := rfl
@[simp] theorem State.withIo_scripted (v : Io) : (s.withIo v).scripted = s.scripted := rfl

@[simp] theorem State.withIo_withIo (v w : Io) : (s.withIo v).withIo w = s.withIo w := rfl
@[simp] theorem State.withIo_self : s.withIo s.io = s := rfl

@[simp] theorem State.withInput_cfg (v : Input) : (s.withInput v).cfg = s.cfg := rfl
@[simp] theorem State.withInput_now (v : Input) : (s.withInput v).now = s.now := rfl
@[simp] theorem State.withInput_sync (v : Input) : (s.withInput v).sync = s.sync := rfl
@[simp] theorem State.withInput_link (v : Input) : (s.withInput v).link = s.link := rfl
@[simp] theorem State.withInput_mem (v : Input) : (s.withInput v).mem = s.mem := rfl
@[simp] theorem State.withInput_indicator (v : Input) : (s.withInput v).indicator = s.indicator := rfl
@[simp] theorem State.withInput_bus (v : Input) : (s.withInput v).bus = s.bus := rfl
@[simp] theorem State.withInput_fsm (v : Input) : (s.withInput v).fsm = s.fsm := rfl
@[simp] theorem State.withInput_faultRegfileOob (v : Input) : (s.withInput v).faultRegfileOob = s.faultRegfileOob := rfl
@[simp] theorem State.withInput_refused (v : Input) : (s.withInput v).refused = s.refused := rfl
@[simp] theorem State.withInput_io (v : Input) : (s.withInput v).io = s.io := rfl
@[simp] theorem State.withInput_input (v : Input) : (s.withInput v).input = v := rfl
@[simp] theorem State.withInput_draws (v : Input) : (s.withInput v).draws = s.draws := rfl
@[simp] theorem State.withInput_scripted (v : Input) : (s.withInput v).scripted = s.scripted := rfl

@[simp] theorem State.withInput_withInput (v w : Input) : (s.withInput v).withInput w = s.withInput w := rfl
@[simp] theorem State.withInput_self : s.withInput s.input = s := rfl

@[simp] theorem State.withDraws_cfg (v : Nat) : (s.withDraws v).cfg = s.cfg := rfl
@[simp] theorem State.withDraws_now (v : Nat) : (s.withDraws v).now = s.now := rfl
@[simp] theorem State.withDraws_sync (v : Nat) : (s.withDraws v).sync = s.sync := rfl
@[simp] theorem State.withDraws_link (v : Nat) : (s.withDraws v).link = s.link := rfl
@[simp] theorem State.withDraws_mem (v : Nat) : (s.withDraws v).mem = s.mem := rfl
@[simp] theorem State.withDraws_indicator (v : Nat) : (s.withDraws v).indicator = s.indicator := rfl
@[simp] theorem State.withDraws_bus (v : Nat) : (s.withDraws v).bus = s.bus := rfl
@[simp] theorem State.withDraws_fsm (v : Nat) : (s.withDraws v).fsm = s.fsm := rfl
@[simp] theorem State.withDraws_faultRegfileOob (v : Nat) : (s.withDraws v).faultRegfileOob = s.faultRegfileOob := rfl
@[simp] theorem State.withDraws_refused (v : Nat) : (s.withDraws v).refused = s.refused := rfl
@[simp] theorem State.withDraws_io (v : Nat) : (s.withDraws v).io = s.io := rfl
@[simp] theorem State.withDraws_input (v : Nat) : (s.withDraws v).input = s.input := rfl
@[simp] theorem State.withDraws_draws (v : Nat) : (s.withDraws v).draws = v := rfl
@[simp] theorem State.withDraws_scripted (v : Nat) : (s.withDraws v).scripted = s.scripted := rfl

@[simp] theorem State.withDraws_withDraws (v w : Nat) : (s.withDraws v).withDraws w = s.withDraws w := rfl
@[simp] theorem State.withDraws_self : s.withDraws s.draws = s := rfl

end Sys2Proof.Machine
end

