-- ==== Sys2Proof/Laws/Memory.lean ====
section
/-! SUPPORT. Laws/Memory.lean: the register file's read and write: a read after a write, the canonical
form kept by every operation, and equal reads make equal memories. -/

namespace Sys2Proof.Machine

@[simp] theorem Memory.read_nil (a : Nat) : Memory.read [] a = 0 := rfl

theorem Memory.read_cons (k : Nat) (v : Byte) (m : Memory) (a : Nat) :
    Memory.read ((k, v) :: m) a = if k = a then v else Memory.read m a := rfl

theorem Memory.wfFrom_cons (lo k : Nat) (v : Byte) (m : Memory) :
    Memory.wfFrom lo ((k, v) :: m) = true ↔
      lo ≤ k ∧ k < regFileSize ∧ v ≠ 0 ∧ Memory.wfFrom (k + 1) m = true := by
  simp [Memory.wfFrom, and_assoc]

/-- The form from a higher bound is the form from a lower one. -/
theorem Memory.wfFrom_mono {lo lo' : Nat} {m : Memory} (h : lo' ≤ lo) (hm : Memory.wfFrom lo m = true) :
    Memory.wfFrom lo' m = true := by
  cases m with
  | nil => rfl
  | cons c m =>
    obtain ⟨k, v⟩ := c
    rw [Memory.wfFrom_cons] at hm ⊢
    exact ⟨h.trans hm.1, hm.2⟩

/-- Below its bound a memory lists nothing. -/
theorem Memory.read_below {lo a : Nat} {m : Memory} (hm : Memory.wfFrom lo m = true) (h : a < lo) :
    Memory.read m a = 0 := by
  induction m generalizing lo with
  | nil => rfl
  | cons c m ih =>
    obtain ⟨k, v⟩ := c
    rw [Memory.wfFrom_cons] at hm
    rw [Memory.read_cons, if_neg (by omega)]
    exact ih hm.2.2.2 (by omega)

theorem Memory.read_put (a : Nat) (v : Byte) (m : Memory) (b : Nat) (ha : Memory.read m a = 0) :
    Memory.read (Memory.put a v m) b = if a = b then v else Memory.read m b := by
  unfold Memory.put
  split
  · next h => split
              · next h' => subst h' h; exact ha
              · rfl
  · rfl

/-- A byte read after a write: the written byte at its own index, the old byte at every other. -/
theorem Memory.read_write {m : Memory} {lo : Nat} (hm : Memory.wfFrom lo m = true) (a : Nat) (v : Byte)
    (b : Nat) : Memory.read (Memory.write m a v) b = if a = b then v else Memory.read m b := by
  induction m generalizing lo with
  | nil => exact Memory.read_put a v [] b rfl
  | cons c m ih =>
    obtain ⟨k, w⟩ := c
    have hm' := (Memory.wfFrom_cons ..).1 hm
    simp only [Memory.write]
    split
    · next h =>
      apply Memory.read_put
      rw [Memory.read_cons, if_neg (by omega)]
      exact Memory.read_below hm'.2.2.2 (by omega)
    · split
      · next h =>
        subst h
        rw [Memory.read_put _ _ _ _ (Memory.read_below hm'.2.2.2 (by omega)), Memory.read_cons]
        split <;> rfl
      · rw [Memory.read_cons, Memory.read_cons, ih hm'.2.2.2]
        split <;> split <;> first | rfl | omega

theorem Memory.put_wf {lo a : Nat} {v : Byte} {m : Memory} (hlo : lo ≤ a) (ha : a < regFileSize)
    (hm : Memory.wfFrom (a + 1) m = true) : Memory.wfFrom lo (Memory.put a v m) = true := by
  unfold Memory.put
  split
  · exact Memory.wfFrom_mono (by omega) hm
  · next h => exact (Memory.wfFrom_cons ..).2 ⟨hlo, ha, h, hm⟩

/-- A write at a storage index keeps the canonical form. -/
theorem Memory.write_wfFrom {lo a : Nat} {m : Memory} (v : Byte) (hlo : lo ≤ a) (ha : a < regFileSize)
    (hm : Memory.wfFrom lo m = true) : Memory.wfFrom lo (Memory.write m a v) = true := by
  induction m generalizing lo with
  | nil => exact Memory.put_wf hlo ha rfl
  | cons c m ih =>
    obtain ⟨k, w⟩ := c
    have hm' := (Memory.wfFrom_cons ..).1 hm
    simp only [Memory.write]
    split
    · next h => exact Memory.put_wf hlo ha ((Memory.wfFrom_cons ..).2 ⟨h, hm'.2⟩)
    · split
      · next h => subst h; exact Memory.put_wf hlo ha hm'.2.2.2
      · exact (Memory.wfFrom_cons ..).2 ⟨hm'.1, hm'.2.1, hm'.2.2.1, ih (by omega) hm'.2.2.2⟩

/-- A write at a storage index keeps the canonical form. -/
theorem Memory.write_wf {m : Memory} {a : Nat} (v : Byte) (ha : a < regFileSize) (hm : m.wf = true) :
    (m.write a v).wf = true := Memory.write_wfFrom v (Nat.zero_le a) ha hm

/-- `reg[i] <- v` keeps the canonical form, whatever the index. -/
theorem State.regWrite_memWf {s : State} (i : Nat) (v : Byte) (hm : s.mem.wf = true) :
    (s.regWrite i v).mem.wf = true := by
  unfold State.regWrite
  split
  · next h => exact Memory.write_wf v h hm
  · exact hm

/-- The register file at reset is in canonical form. -/
theorem resetMemory_wf (c : Cfg) : (resetMemory c).wf = true := by
  unfold resetMemory Memory.wf
  split
  · rfl
  · next h => exact (Memory.wfFrom_cons ..).2 ⟨Nat.zero_le _, c.regFwId.isLt, h, rfl⟩

/-- The register file at reset: the firmware id at its index, 0 elsewhere. -/
theorem resetMemory_read (c : Cfg) (a : Nat) :
    (resetMemory c).read a = if a = c.regFwId.val then c.fwId else 0 := by
  unfold resetMemory
  split
  · next h => split <;> simp [h]
  · rw [Memory.read_cons, Memory.read_nil]
    split <;> split <;> first | rfl | omega

/-- Two memories in canonical form that read alike are one. -/
theorem Memory.ext_of_read {lo : Nat} {m n : Memory} (hm : Memory.wfFrom lo m = true)
    (hn : Memory.wfFrom lo n = true) (h : ∀ a, Memory.read m a = Memory.read n a) : m = n := by
  induction m generalizing lo n with
  | nil =>
    cases n with
    | nil => rfl
    | cons c n =>
      obtain ⟨k, v⟩ := c
      have := h k
      rw [Memory.read_cons, if_pos rfl] at this
      exact absurd this.symm ((Memory.wfFrom_cons ..).1 hn).2.2.1
  | cons c m ih =>
    obtain ⟨k, v⟩ := c
    have hm' := (Memory.wfFrom_cons ..).1 hm
    cases n with
    | nil =>
      have := h k
      rw [Memory.read_cons, if_pos rfl] at this
      exact absurd this hm'.2.2.1
    | cons d n =>
      obtain ⟨l, w⟩ := d
      have hn' := (Memory.wfFrom_cons ..).1 hn
      have hkl : k = l := by
        rcases Nat.lt_trichotomy k l with hlt | heq | hgt
        · have := h k
          rw [Memory.read_cons, if_pos rfl, Memory.read_cons, if_neg (by omega),
            Memory.read_below hn'.2.2.2 (by omega)] at this
          exact absurd this hm'.2.2.1
        · exact heq
        · have := h l
          rw [Memory.read_cons, if_neg (by omega), Memory.read_below hm'.2.2.2 (by omega),
            Memory.read_cons, if_pos rfl] at this
          exact absurd this.symm hn'.2.2.1
      subst hkl
      have hvw : v = w := by
        have := h k
        rwa [Memory.read_cons, if_pos rfl, Memory.read_cons, if_pos rfl] at this
      subst hvw
      rw [ih hm'.2.2.2 hn'.2.2.2]
      intro a
      by_cases ha : k = a
      · subst ha
        rw [Memory.read_below hm'.2.2.2 (by omega), Memory.read_below hn'.2.2.2 (by omega)]
      · have := h a
        rwa [Memory.read_cons, if_neg ha, Memory.read_cons, if_neg ha] at this

end Sys2Proof.Machine
end

