-- ==== Sys2Proof/Laws/Ops.lean ====
section
/-! SUPPORT. Laws/Ops.lean: what each shared operation of Machine/Ops.lean can do, said once: the
register file's accessors, Emit and the encoder in the bus agent, the event slot. -/

namespace Sys2Proof.Machine

/-! ### Structure eta for the groups -/

/-- Two states with equal groups are one. -/
theorem State.ext_groups {s t : State} (h1 : s.cfg = t.cfg) (h2 : s.now = t.now) (h3 : s.sync = t.sync)
    (h4 : s.link = t.link) (h5 : s.mem = t.mem) (h6 : s.indicator = t.indicator) (h7 : s.bus = t.bus)
    (h8 : s.fsm = t.fsm) (h9 : s.faultRegfileOob = t.faultRegfileOob) (h10 : s.refused = t.refused)
    (h11 : s.io = t.io) (h12 : s.input = t.input) (h13 : s.draws = t.draws)
    (h14 : s.scripted = t.scripted) : s = t := by
  cases s
  cases t
  simp_all

/-! ### The register file's accessors -/

/-- A write at a storage index replaces the register file and nothing else. -/
theorem State.regWrite_storage (s : State) (i : Fin 12) (v : Byte) :
    s.regWrite i.val v = s.withMem (s.mem.write i.val v) := if_pos i.isLt

/-- What a register-file write leaves: everything but the register file. -/
theorem State.regWrite_eq (s : State) (i : Nat) (v : Byte) :
    s.regWrite i v = s.withMem (s.regWrite i v).mem := by
  unfold State.regWrite
  split <;> rfl

/-- What a bus read's draw leaves: everything but the draw counter. -/
theorem State.afterRegRead_eq (s : State) (i : Byte) :
    s.afterRegRead i = s.withDraws (s.afterRegRead i).draws := by
  unfold State.afterRegRead
  split <;> rfl

/-- A read of a storage index answers the stored byte. -/
theorem State.regReadByte_storage (s : State) (i : Byte) (h : i.toNat < regFileSize) :
    s.regReadByte i = s.mem.read i.toNat := if_pos h

/-! ### The encoder -/

/-- Emit changes `tx_log`, the drop counter and the draw counter, and nothing else. -/
theorem emit_eq (b : Byte) (s : State) : emit b s = afterOffer s [b] := by
  obtain ⟨cfg, now, sync, link, mem, ind, bus, fsm, fault, refused, ⟨tx, rd, ack, drop⟩, input, draws,
    scripted⟩ := s
  cases drop with
  | succ d =>
    simp [emit, afterOffer, acceptedBytes, takenBytes, State.withIo]
  | zero =>
    simp only [emit, afterOffer, acceptedBytes, takenBytes, State.sinkAccepts, State.logTx,
      State.withIo, State.withDraws]
    by_cases h : (scripted || Config.drawAccept draws) = true
    · simp [h]
    · simp [h]

@[simp] theorem afterOffer_nil (s : State) : afterOffer s [] = s := by
  simp [afterOffer, acceptedBytes, takenBytes]

/-- Offering `b :: bs` is offering `b`, then `bs`. -/
theorem afterOffer_cons (s : State) (b : Byte) (bs : List Byte) :
    afterOffer s (b :: bs) = afterOffer (afterOffer s [b]) bs := by
  obtain ⟨cfg, now, sync, link, mem, ind, bus, fsm, fault, refused, ⟨tx, rd, ack, drop⟩, input, draws,
    scripted⟩ := s
  cases drop with
  | succ d => simp [afterOffer, acceptedBytes, takenBytes]
  | zero =>
    simp only [afterOffer, acceptedBytes, takenBytes]
    by_cases h : (scripted || Config.drawAccept draws) = true
    · simp [h]; omega
    · simp [h]; omega

/-- What a run of offered bytes does: `afterOffer`. -/
theorem emitAll_eq (bs : List Byte) (s : State) : emitAll bs s = afterOffer s bs := by
  induction bs generalizing s with
  | nil => rw [afterOffer_nil]; rfl
  | cons b bs ih =>
    rw [afterOffer_cons, ← emit_eq]
    exact ih (emit b s)

/-- What SendFrame in the bus agent does: six bytes offered in a row. -/
theorem sendFrameBus_eq (p : CmdPair) (s : State) : sendFrameBus p s = afterOffer s (frameBytes p) :=
  emitAll_eq _ _

/-- In a script, where nothing is dropped, every offered byte is taken. -/
theorem takenBytes_scripted (draw : Nat) (bs : List Byte) : takenBytes true 0 draw bs = bs := by
  induction bs generalizing draw with
  | nil => rfl
  | cons b bs ih => simp [takenBytes, ih]

/-- In a script, where nothing is dropped, every offered byte is taken. -/
theorem acceptedBytes_scripted (s : State) (bs : List Byte) (h : s.scripted = true)
    (hd : s.io.envTxDrop = 0) : acceptedBytes s bs = bs := by
  rw [acceptedBytes, h, hd, takenBytes_scripted]

/-! ### What the operations leave alone -/

theorem BusKeeps.refl (s : State) : BusKeeps s s := ⟨rfl, rfl, rfl, rfl, rfl, rfl, rfl, rfl⟩

theorem BusKeeps.trans {s t u : State} (h : BusKeeps s t) (k : BusKeeps t u) : BusKeeps s u :=
  ⟨k.cfg.trans h.cfg, k.now.trans h.now, k.sync.trans h.sync, k.link.trans h.link, k.fsm.trans h.fsm,
    k.refused.trans h.refused, k.input.trans h.input, k.scripted.trans h.scripted⟩

theorem BusKeeps.withMem (s : State) (v : Memory) : BusKeeps s (s.withMem v) :=
  ⟨rfl, rfl, rfl, rfl, rfl, rfl, rfl, rfl⟩

theorem BusKeeps.withIndicator (s : State) (v : Bool) : BusKeeps s (s.withIndicator v) :=
  ⟨rfl, rfl, rfl, rfl, rfl, rfl, rfl, rfl⟩

theorem BusKeeps.withBus (s : State) (v : Bus) : BusKeeps s (s.withBus v) :=
  ⟨rfl, rfl, rfl, rfl, rfl, rfl, rfl, rfl⟩

theorem BusKeeps.withFault (s : State) (v : Bool) : BusKeeps s (s.withFault v) :=
  ⟨rfl, rfl, rfl, rfl, rfl, rfl, rfl, rfl⟩

theorem BusKeeps.withIo (s : State) (v : Io) : BusKeeps s (s.withIo v) :=
  ⟨rfl, rfl, rfl, rfl, rfl, rfl, rfl, rfl⟩

theorem BusKeeps.withDraws (s : State) (v : Nat) : BusKeeps s (s.withDraws v) :=
  ⟨rfl, rfl, rfl, rfl, rfl, rfl, rfl, rfl⟩

theorem BusKeeps.afterOffer (s : State) (bs : List Byte) : BusKeeps s (afterOffer s bs) :=
  ⟨rfl, rfl, rfl, rfl, rfl, rfl, rfl, rfl⟩

theorem BusKeeps.regWrite (s : State) (i : Nat) (v : Byte) : BusKeeps s (s.regWrite i v) := by
  rw [State.regWrite_eq]
  exact BusKeeps.withMem _ _

theorem IpKeeps.refl (s : State) : IpKeeps s s := ⟨rfl, rfl, rfl, rfl, rfl, rfl, rfl, rfl⟩

theorem IpKeeps.trans {s t u : State} (h : IpKeeps s t) (k : IpKeeps t u) : IpKeeps s u := by
  refine ⟨k.cfg.trans h.cfg, ?_, k.link.trans h.link, ?_, k.refused.trans h.refused,
    k.pending.trans h.pending, k.issue.trans h.issue, k.scripted.trans h.scripted⟩
  · rw [k.sync, h.sync]
  · rw [k.fsm, h.fsm]

/-- What a bus stimulus leaves alone, an interrupt point leaves alone. -/
theorem BusKeeps.toIp {s t : State} (h : BusKeeps s t) : IpKeeps s t :=
  ⟨h.cfg, by rw [h.sync], h.link, by rw [h.fsm], h.refused, by rw [h.input],
    by rw [h.input], h.scripted⟩

end Sys2Proof.Machine
end

