-- ==== Sys2Proof/Laws/BusSlave.lean ====
section
/-! SUPPORT. Laws/BusSlave.lean: what the router and the bus stimuli can do: what they leave alone,
the canonical register file kept, the model fault's mark never cleared, and the bus slave's own
invariant. -/

namespace Sys2Proof.Machine

/-- What one bus operation keeps: `BusKeeps`, the canonical form and the sticky mark. -/
structure BusSafe (s t : State) : Prop extends BusKeeps s t where
  memWf : s.mem.wf = true → t.mem.wf = true
  sticky : s.faultRegfileOob = true → t.faultRegfileOob = true

theorem BusSafe.refl (s : State) : BusSafe s s := ⟨BusKeeps.refl s, id, id⟩

theorem BusSafe.trans {s t u : State} (h : BusSafe s t) (k : BusSafe t u) : BusSafe s u :=
  ⟨h.toBusKeeps.trans k.toBusKeeps, k.memWf ∘ h.memWf, k.sticky ∘ h.sticky⟩

theorem BusSafe.withBus (s : State) (v : Bus) : BusSafe s (s.withBus v) :=
  ⟨BusKeeps.withBus s v, id, id⟩

theorem BusSafe.withIo (s : State) (v : Io) : BusSafe s (s.withIo v) :=
  ⟨BusKeeps.withIo s v, id, id⟩

theorem BusSafe.withDraws (s : State) (v : Nat) : BusSafe s (s.withDraws v) :=
  ⟨BusKeeps.withDraws s v, id, id⟩

theorem BusSafe.withIndicator (s : State) (v : Bool) : BusSafe s (s.withIndicator v) :=
  ⟨BusKeeps.withIndicator s v, id, id⟩

theorem BusSafe.afterOffer (s : State) (bs : List Byte) : BusSafe s (afterOffer s bs) :=
  ⟨BusKeeps.afterOffer s bs, id, id⟩

theorem BusSafe.sendFrameBus (p : CmdPair) (s : State) : BusSafe s (sendFrameBus p s) := by
  rw [sendFrameBus_eq]
  exact BusSafe.afterOffer _ _

/-! ### The router -/

theorem rawStore_safe (i : Byte) (s : State) : BusSafe s (rawStore i s) := by
  unfold rawStore
  split
  · exact BusSafe.refl s
  · split
    · refine ⟨BusKeeps.regWrite _ _ _, State.regWrite_memWf _ _, fun h => ?_⟩
      rw [State.regWrite_eq]
      exact h
    · exact ⟨BusKeeps.withFault s true, id, fun _ => rfl⟩

theorem routeKey_safe (k : Byte) (s : State) : BusSafe s (routeKey k s) := by
  unfold routeKey
  split
  · exact BusSafe.sendFrameBus _ _
  · exact BusSafe.refl s

theorem volumeSet_safe (v : BitVec 16) (s : State) : BusSafe s (volumeSet v s) := by
  unfold volumeSet
  split
  · exact BusSafe.refl s
  · exact BusSafe.sendFrameBus _ _

theorem auxControl_safe (v : BitVec 16) (s : State) : BusSafe s (auxControl v s) := by
  unfold auxControl
  split
  · exact BusSafe.withIndicator s _
  · split
    · exact BusSafe.withIndicator s _
    · exact BusSafe.refl s

theorem routeAction_safe (i : Byte) (s : State) : BusSafe s (routeAction i s) := by
  unfold routeAction
  split
  · exact routeKey_safe _ _
  · split
    · exact volumeSet_safe _ _
    · split
      · exact auxControl_safe _ _
      · exact BusSafe.refl s

theorem route_safe (s : State) : BusSafe s (route s) := by
  unfold route
  split
  · exact BusSafe.refl s
  · exact (rawStore_safe _ s).trans (routeAction_safe _ _)

/-! The router leaves the bus slave's own state alone. -/

@[simp] theorem afterOffer_bus (s : State) (bs : List Byte) : (afterOffer s bs).bus = s.bus := rfl

@[simp] theorem regWrite_bus (s : State) (i : Nat) (v : Byte) : (s.regWrite i v).bus = s.bus := by
  rw [State.regWrite_eq]
  rfl

@[simp] theorem afterRegRead_bus (s : State) (i : Byte) : (s.afterRegRead i).bus = s.bus := by
  rw [State.afterRegRead_eq]
  rfl

@[simp] theorem rawStore_bus (i : Byte) (s : State) : (rawStore i s).bus = s.bus := by
  unfold rawStore
  split
  · rfl
  · split
    · exact regWrite_bus _ _ _
    · rfl

@[simp] theorem routeAction_bus (i : Byte) (s : State) : (routeAction i s).bus = s.bus := by
  unfold routeAction routeKey volumeSet auxControl
  simp only [sendFrameBus_eq]
  split
  · split <;> rfl
  · split
    · split <;> rfl
    · split
      · split
        · rfl
        · split <;> rfl
      · rfl

@[simp] theorem route_bus (s : State) : (route s).bus = s.bus := by
  unfold route
  split
  · rfl
  · rw [routeAction_bus, rawStore_bus]

/-! ### The bus stimuli -/

theorem busIdle_safe (s : State) : BusSafe s (busIdle s) := BusSafe.withBus s _

theorem busAddrW_safe (s : State) : BusSafe s (busAddrW s) := BusSafe.withBus s _

theorem busAddrR_safe (s : State) : BusSafe s (busAddrR s) := BusSafe.withBus s _

theorem recordComplete_safe (s : State) : BusSafe s (recordComplete s) :=
  (route_safe s).trans (busIdle_safe _)

theorem busWrite_safe (b : Byte) (s : State) : BusSafe s (busWrite b s) := by
  unfold busWrite
  split
  · dsimp only
    split
    · exact (BusSafe.withBus s _).trans (BusSafe.withIo _ _)
    · exact ((BusSafe.withBus s _).trans (BusSafe.withIo _ _)).trans (recordComplete_safe _)
  · exact BusSafe.withIo s _

theorem busRead_safe (s : State) : BusSafe s (busRead s) := by
  unfold busRead
  split
  · rw [State.afterRegRead_eq]
    exact ((BusSafe.withDraws s _).trans (BusSafe.withIo _ _)).trans (BusSafe.withBus _ _)
  · exact (BusSafe.withDraws s _).trans (BusSafe.withIo _ _)

theorem partialRecord_safe (s : State) : BusSafe s (partialRecord s) := by
  unfold partialRecord
  split
  · exact (BusSafe.withBus s _).trans (route_safe _)
  · exact BusSafe.withBus s _

theorem busStop_safe (p : Bool) (s : State) : BusSafe s (busStop p s) := by
  unfold busStop
  split
  · exact (partialRecord_safe s).trans (busIdle_safe _)
  · exact busIdle_safe s

theorem busAckFail_safe (s : State) : BusSafe s (busAckFail s) := by
  unfold busAckFail
  split
  · exact (partialRecord_safe s).trans (busIdle_safe _)
  · exact BusSafe.withBus s _
  · exact BusSafe.refl s
  · exact BusSafe.refl s

theorem busError_safe (s : State) : BusSafe s (busError s) :=
  ((BusSafe.withBus s _).trans (BusSafe.withBus _ _)).trans (busIdle_safe _)

theorem busRecord_safe (i lo hi : Byte) (s : State) : BusSafe s (busRecord i lo hi s) :=
  (((busAddrW_safe s).trans (busWrite_safe _ _)).trans (busWrite_safe _ _)).trans (busWrite_safe _ _)

/-! ### The bus slave's invariant -/

/-- The bus slave between stimuli: recovery never holds (41_register_bus.md R182), and a write in
progress has received fewer than three bytes (R172). -/
def BusOk (b : Bus) : Prop := b.state ≠ .errRecovery ∧ (b.state = .addrW → b.rxCount.toNat < recBytes)

theorem BusOk.idle {b : Bus} (h : b.state = .idle) : BusOk b := by simp [BusOk, h]

@[simp] theorem busIdle_state (s : State) : (busIdle s).bus.state = .idle := rfl

theorem busAddrW_ok (s : State) : BusOk (busAddrW s).bus := by simp [BusOk, busAddrW, recBytes]

theorem busAddrR_ok (s : State) : BusOk (busAddrR s).bus := by simp [BusOk, busAddrR]

theorem busWrite_ok (b : Byte) {s : State} (h : BusOk s.bus) : BusOk (busWrite b s).bus := by
  unfold busWrite
  split
  · next hw =>
    dsimp only
    split
    · next hc => exact ⟨by simp [State.logAck, storeRecByte, hw], fun _ => hc⟩
    · exact BusOk.idle rfl
  · exact h

theorem busRead_ok {s : State} (h : BusOk s.bus) : BusOk (busRead s).bus := by
  unfold busRead
  split
  · next hr => simp [BusOk, State.logRead, hr]
  · exact h

theorem busStop_ok (p : Bool) (s : State) : BusOk (busStop p s).bus := by
  unfold busStop
  split <;> exact BusOk.idle rfl

theorem busAckFail_ok {s : State} (h : BusOk s.bus) : BusOk (busAckFail s).bus := by
  unfold busAckFail
  split
  · exact BusOk.idle rfl
  · exact BusOk.idle rfl
  · exact h
  · exact h

theorem busError_ok (s : State) : BusOk (busError s).bus := BusOk.idle rfl

theorem busRecord_ok (i lo hi : Byte) (s : State) : BusOk (busRecord i lo hi s).bus :=
  busWrite_ok _ (busWrite_ok _ (busWrite_ok _ (busAddrW_ok s)))

/-! ### A whole write record (41_register_bus.md R172, R173) -/

/-- The state a whole write record leaves before the router runs: three acknowledge bits, the record
and its count. -/
def recordReceived (i lo hi : Byte) (s : State) : State :=
  { s with
    io := { s.io with ackLog := s.io.ackLog ++ [true, true, false] }
    bus := { s.bus with state := .addrW, record := ⟨i, lo, hi⟩, rxCount := 3 } }

/-- What a whole write record does: received, routed, listening again. -/
theorem busRecord_eq (i lo hi : Byte) (s : State) :
    busRecord i lo hi s = busIdle (route (recordReceived i lo hi s)) := by
  simp [busRecord, busWrite, busAddrW, storeRecByte, State.logAck, recordComplete, recordReceived,
    recBytes, Record.set, State.withBus, State.withIo]

/-! ### What a record does to the register file -/

@[simp] theorem routeAction_mem (i : Byte) (s : State) : (routeAction i s).mem = s.mem := by
  unfold routeAction routeKey volumeSet auxControl
  simp only [sendFrameBus_eq]
  split
  · split <;> rfl
  · split
    · split <;> rfl
    · split
      · split
        · rfl
        · split <;> rfl
      · rfl

theorem State.regWrite_frame {s : State} (hm : s.mem.wf = true) (i a : Nat) (v : Byte) (h : a ≠ i) :
    (s.regWrite i v).mem.read a = s.mem.read a := by
  unfold State.regWrite
  split
  · rw [State.withMem_mem, Memory.read_write (lo := 0) hm]
    simp [Ne.symm h]
  · rfl

theorem rawStore_frame (i : Byte) {s : State} (hm : s.mem.wf = true) (a : Nat) (h : a ≠ i.toNat) :
    (rawStore i s).mem.read a = s.mem.read a := by
  unfold rawStore
  split
  · rfl
  · split
    · exact State.regWrite_frame hm _ _ _ h
    · rfl

/-- The router writes the register file at the record's index alone. -/
theorem route_frame {s : State} (hm : s.mem.wf = true) (a : Nat) (h : a ≠ s.bus.record.index.toNat) :
    (route s).mem.read a = s.mem.read a := by
  unfold route
  split
  · rfl
  · rw [routeAction_mem, rawStore_frame _ hm a h]

theorem busRecord_frame (i lo hi : Byte) {s : State} (hm : s.mem.wf = true) (a : Nat)
    (h : a ≠ i.toNat) : (busRecord i lo hi s).mem.read a = s.mem.read a := by
  rw [busRecord_eq]
  exact route_frame (s := recordReceived i lo hi s) hm a h

/-- The register file after the raw store of `lo` at a storage index (41_register_bus.md R192). -/
def rawMemory (i lo : Byte) (s : State) : Memory :=
  match s.cfg.rawStoreMode with
  | .byte => s.mem.write i.toNat lo
  | .none => s.mem

theorem rawStore_storage (i : Byte) (s : State) (h : i.toNat < regFileSize) :
    rawStore i s = s.withMem (rawMemory i s.bus.record.lo s) := by
  unfold rawStore rawMemory
  cases s.cfg.rawStoreMode
  · rfl
  · simp [h, State.regWrite]

@[simp] theorem recordReceived_cfg (i lo hi : Byte) (s : State) :
    (recordReceived i lo hi s).cfg = s.cfg := rfl
@[simp] theorem recordReceived_record (i lo hi : Byte) (s : State) :
    (recordReceived i lo hi s).bus.record = ⟨i, lo, hi⟩ := rfl

/-- A record with a storage index: received, stored, acted on, listening again. -/
theorem busRecord_storage (i lo hi : Byte) (s : State) (h : i.toNat < regFileSize) :
    busRecord i lo hi s =
      busIdle (routeAction i ((recordReceived i lo hi s).withMem (rawMemory i lo s))) := by
  have hn : ¬ regIndexMax < i.toNat := by
    simp only [regFileSize, regIndexMax] at h ⊢
    omega
  rw [busRecord_eq, route, recordReceived_record, if_neg hn, rawStore_storage _ _ h]
  rfl

/-- The 16-bit value of a record (20_memory.md R65). -/
theorem data16_toNat (r : Record) : r.data16.toNat = r.lo.toNat + 256 * r.hi.toNat := by
  rw [Record.data16, BitVec.toNat_append, ← Nat.shiftLeft_add_eq_or_of_lt r.lo.isLt,
    Nat.shiftLeft_eq]
  omega

theorem data16_low (r : Record) : r.data16.extractLsb' 0 8 = r.lo := by
  apply BitVec.eq_of_toNat_eq
  rw [BitVec.extractLsb'_toNat, data16_toNat]
  have := r.lo.isLt
  simp only [Nat.shiftRight_zero]
  omega

theorem regByte_toNat (r : Fin 12) : (regByte r).toNat = r.val := by
  revert r
  decide

theorem regByte_inj {a b : Fin 12} (h : regByte a = regByte b) : a = b := by
  rw [Fin.ext_iff, ← regByte_toNat, ← regByte_toNat, h]

/-- The lookup of a key's own payload finds a key with that payload. -/
theorem keyOf_self (c : Cfg) (k : Key) : ∃ k', keyOf c (c.keyCode k).payload = some k' ∧
    (c.keyCode k').payload = (c.keyCode k).payload := by
  have hk : k ∈ allKeys := by cases k <;> simp [allKeys]
  have h := List.find?_isSome (xs := allKeys)
    (p := fun j => decide ((c.keyCode j).payload = (c.keyCode k).payload)) |>.mpr ⟨k, hk, by simp⟩
  obtain ⟨k', h⟩ := Option.isSome_iff_exists.mp h
  exact ⟨k', h, by simpa using List.find?_some h⟩

end Sys2Proof.Machine
end

