-- ==== Sys2Proof/Laws/Interrupt.lean ====
section
/-! SUPPORT. Laws/Interrupt.lean: what the stimuli of an interrupt point can do, and with them the poll
agent's SendFrame and register-file write; and what these are where no stimulus is in store. -/

namespace Sys2Proof.Machine

/-- What an interrupt point keeps: `IpKeeps`, the canonical register file, the sticky mark, the ranges
of the tick and the FIFO, and the bus slave's invariant. -/
structure IpSafe (s t : State) : Prop extends IpKeeps s t where
  memWf : s.mem.wf = true → t.mem.wf = true
  sticky : s.faultRegfileOob = true → t.faultRegfileOob = true
  nowLt : s.now < 2 ^ s.cfg.tickBits → t.now < 2 ^ t.cfg.tickBits
  fifo : s.sync.rxFifo.length ≤ s.cfg.rxFifoDepth → t.sync.rxFifo.length ≤ t.cfg.rxFifoDepth
  busOk : BusOk s.bus → BusOk t.bus

theorem IpSafe.refl (s : State) : IpSafe s s := ⟨IpKeeps.refl s, id, id, id, id, id⟩

theorem IpSafe.trans {s t u : State} (h : IpSafe s t) (k : IpSafe t u) : IpSafe s u :=
  ⟨h.toIpKeeps.trans k.toIpKeeps, k.memWf ∘ h.memWf, k.sticky ∘ h.sticky, k.nowLt ∘ h.nowLt,
    k.fifo ∘ h.fifo, k.busOk ∘ h.busOk⟩

/-- A bus stimulus that keeps the bus slave's invariant. -/
theorem BusSafe.toIp {s t : State} (h : BusSafe s t) (k : BusOk s.bus → BusOk t.bus) : IpSafe s t :=
  ⟨h.toBusKeeps.toIp, h.memWf, h.sticky, by rw [h.now, h.cfg]; exact id,
    by rw [h.sync, h.cfg]; exact id, k⟩

theorem wrapTick_lt (c : Cfg) (n : Nat) : wrapTick c n < 2 ^ c.tickBits :=
  Nat.mod_lt _ (Nat.pow_pos (by decide))

theorem advance_safe (ms : Nat) (s : State) : IpSafe s (advance ms s) :=
  ⟨⟨rfl, rfl, rfl, rfl, rfl, rfl, rfl, rfl⟩, id, id, fun _ => wrapTick_lt _ _, id, id⟩

theorem receiveByte_safe (b : Byte) (s : State) : IpSafe s (receiveByte b s) := by
  unfold receiveByte
  split
  · next h => exact ⟨⟨rfl, rfl, rfl, rfl, rfl, rfl, rfl, rfl⟩, id, id, id, fun _ => by simpa using h, id⟩
  · exact IpSafe.refl s

theorem postEvent_safe (e : Byte) (s : State) : IpSafe s (postEvent e s) :=
  ⟨⟨rfl, rfl, rfl, rfl, rfl, rfl, rfl, rfl⟩, id, id, id, id, id⟩

theorem setScan_safe (b : Bool) (s : State) : IpSafe s (setScan b s) :=
  ⟨⟨rfl, rfl, rfl, rfl, rfl, rfl, rfl, rfl⟩, id, id, id, id, id⟩

theorem withIo_safe (s : State) (v : Io) : IpSafe s (s.withIo v) :=
  ⟨⟨rfl, rfl, rfl, rfl, rfl, rfl, rfl, rfl⟩, id, id, id, id, id⟩

theorem runIpStim_safe (i : IpStim) (s : State) : IpSafe s (runIpStim i s) := by
  cases i with
  | tick n => exact advance_safe _ s
  | tick100 n => exact advance_safe _ s
  | rxb b => exact receiveByte_safe b s
  | post e => exact postEvent_safe e s
  | scan b => exact setScan_safe b s
  | txdrop n => exact withIo_safe s _
  | baddrw => exact (busAddrW_safe s).toIp fun _ => busAddrW_ok s
  | baddrr => exact (busAddrR_safe s).toIp fun _ => busAddrR_ok s
  | bwr b => exact (busWrite_safe b s).toIp (busWrite_ok b)
  | brd => exact (busRead_safe s).toIp busRead_ok
  | bstop p => exact (busStop_safe p s).toIp fun _ => busStop_ok p s
  | baf => exact (busAckFail_safe s).toIp busAckFail_ok
  | berr => exact (busError_safe s).toIp fun _ => busError_ok s

theorem runIpStims_safe (is : List IpStim) (s : State) : IpSafe s (runIpStims is s) := by
  induction is generalizing s with
  | nil => exact IpSafe.refl s
  | cons i is ih => exact (runIpStim_safe i s).trans (ih _)

/-- What an interrupt point can do. -/
theorem interruptPoint_safe (s : State) : IpSafe s (interruptPoint s) := by
  unfold interruptPoint
  split
  · exact IpSafe.refl s
  · next rest _ =>
    have h : IpSafe s (s.withInput { s.input with ipSched := rest }) :=
      ⟨⟨rfl, rfl, rfl, rfl, rfl, rfl, rfl, rfl⟩, id, id, id, id, id⟩
    exact h.trans (runIpStims_safe _ _)

theorem emit_safe (b : Byte) (s : State) : IpSafe s (emit b s) := by
  rw [emit_eq]
  exact (BusSafe.afterOffer s _).toIp id

theorem emitAllPoll_safe (bs : List Byte) (s : State) : IpSafe s (emitAllPoll bs s) := by
  induction bs generalizing s with
  | nil => exact IpSafe.refl s
  | cons b bs ih => exact ((interruptPoint_safe s).trans (emit_safe b _)).trans (ih _)

/-- What SendFrame in the poll agent can do. -/
theorem sendFramePoll_safe (p : CmdPair) (s : State) : IpSafe s (sendFramePoll p s) :=
  emitAllPoll_safe _ s

theorem regWrite_safe (s : State) (i : Nat) (v : Byte) : IpSafe s (s.regWrite i v) := by
  refine BusSafe.toIp ⟨BusKeeps.regWrite s i v, State.regWrite_memWf i v, ?_⟩ ?_
  · rw [State.regWrite_eq]; exact id
  · rw [regWrite_bus]; exact id

/-- What a register-file write of the poll agent can do. -/
theorem regWritePoll_safe (i : Fin 12) (v : Byte) (s : State) : IpSafe s (regWritePoll i v s) :=
  (interruptPoint_safe s).trans (regWrite_safe _ _ _)

/-! ### Where no stimulus is in store -/

theorem interruptPoint_quiet {s : State} (h : s.quietPoints) : interruptPoint s = s := by
  unfold interruptPoint
  rw [show s.input.ipSched = [] from h]

@[simp] theorem afterOffer_input (s : State) (bs : List Byte) : (afterOffer s bs).input = s.input := rfl

theorem afterOffer_quiet {s : State} (h : s.quietPoints) (bs : List Byte) :
    (afterOffer s bs).quietPoints := h

theorem emitAllPoll_quiet {s : State} (h : s.quietPoints) (bs : List Byte) :
    emitAllPoll bs s = afterOffer s bs := by
  induction bs generalizing s with
  | nil => rw [afterOffer_nil]; rfl
  | cons b bs ih =>
    rw [afterOffer_cons, ← ih (afterOffer_quiet h [b]), ← emit_eq]
    show emitAllPoll bs (emit b (interruptPoint s)) = _
    rw [interruptPoint_quiet h]

/-- SendFrame in the poll agent, where no stimulus is in store: the six bytes in a row. -/
theorem sendFramePoll_quiet {s : State} (h : s.quietPoints) (p : CmdPair) :
    sendFramePoll p s = afterOffer s (frameBytes p) := emitAllPoll_quiet h _

theorem regWritePoll_quiet {s : State} (h : s.quietPoints) (i : Fin 12) (v : Byte) :
    regWritePoll i v s = s.withMem (s.mem.write i.val v) := by
  rw [regWritePoll, interruptPoint_quiet h, State.regWrite_storage]

/-! ### The schedule is used up one entry a point -/

/-- A stimulus of an interrupt point leaves the schedule alone. -/
theorem runIpStim_sched (i : IpStim) (s : State) : (runIpStim i s).input = s.input := by
  cases i with
  | tick n => rfl
  | tick100 n => rfl
  | rxb b => simp only [runIpStim, receiveByte]; split <;> rfl
  | post e => rfl
  | scan b => rfl
  | txdrop n => rfl
  | baddrw => rfl
  | baddrr => rfl
  | bwr b => exact (busWrite_safe b s).input
  | brd => exact (busRead_safe s).input
  | bstop p => exact (busStop_safe p s).input
  | baf => exact (busAckFail_safe s).input
  | berr => exact (busError_safe s).input

theorem runIpStims_sched (is : List IpStim) (s : State) : (runIpStims is s).input = s.input := by
  induction is generalizing s with
  | nil => rfl
  | cons i is ih => exact (ih _).trans (runIpStim_sched i s)

/-- An interrupt point takes the first entry of the schedule. -/
theorem interruptPoint_sched (s : State) :
    (interruptPoint s).input.ipSched = s.input.ipSched.tail := by
  unfold interruptPoint
  split
  · next h => rw [h]; rfl
  · next h => rw [runIpStims_sched, h]; rfl

/-- A stimulus queues at most one byte. -/
theorem runIpStim_fifo (i : IpStim) (s : State) :
    (runIpStim i s).sync.rxFifo.length ≤ s.sync.rxFifo.length + 1 := by
  cases i with
  | rxb b =>
    simp only [runIpStim, receiveByte]
    split <;> simp
  | tick n => exact Nat.le_succ _
  | tick100 n => exact Nat.le_succ _
  | post e => exact Nat.le_succ _
  | scan b => exact Nat.le_succ _
  | txdrop n => exact Nat.le_succ _
  | baddrw => exact Nat.le_succ _
  | baddrr => exact Nat.le_succ _
  | bwr b => exact (congrArg (·.rxFifo.length) (busWrite_safe b s).sync).le.trans (Nat.le_succ _)
  | brd => exact (congrArg (·.rxFifo.length) (busRead_safe s).sync).le.trans (Nat.le_succ _)
  | bstop p => exact (congrArg (·.rxFifo.length) (busStop_safe p s).sync).le.trans (Nat.le_succ _)
  | baf => exact (congrArg (·.rxFifo.length) (busAckFail_safe s).sync).le.trans (Nat.le_succ _)
  | berr => exact (congrArg (·.rxFifo.length) (busError_safe s).sync).le.trans (Nat.le_succ _)

theorem runIpStims_fifo (is : List IpStim) (s : State) :
    (runIpStims is s).sync.rxFifo.length ≤ s.sync.rxFifo.length + is.length := by
  induction is generalizing s with
  | nil => exact Nat.le_refl _
  | cons i is ih =>
    have h1 := ih (runIpStim i s)
    have h2 := runIpStim_fifo i s
    simp only [runIpStims, List.foldl_cons, List.length_cons] at h1 ⊢
    omega

/-- The bytes queued and the stimuli in store: an interrupt point does not raise their number. -/
theorem interruptPoint_fuel (s : State) :
    (interruptPoint s).sync.rxFifo.length + (interruptPoint s).input.ipSched.flatten.length ≤
      s.sync.rxFifo.length + s.input.ipSched.flatten.length := by
  rw [interruptPoint_sched]
  unfold interruptPoint
  split
  · next h => simp [h]
  · next is rest h =>
    have h1 := runIpStims_fifo is (s.withInput { s.input with ipSched := rest })
    simp only [State.withInput_sync] at h1
    rw [h]
    simp only [List.tail_cons, List.flatten_cons, List.length_append]
    omega

end Sys2Proof.Machine
end

