-- ==== Sys2Proof/Laws/CompanionLink.lean ====
section
/-! SUPPORT. Laws/CompanionLink.lean: what the synchronizer and the companion link can do: what one byte
changes, that the fuel of the SyncCall loop never shows, what the reactions leave alone. -/

namespace Sys2Proof.Machine

/-! ### One byte -/

@[simp] theorem setFifo_fifo (l : List Byte) (s : State) : (setFifo l s).sync.rxFifo = l := rfl
@[simp] theorem setFifo_input (l : List Byte) (s : State) : (setFifo l s).input = s.input := rfl
@[simp] theorem setFifo_now (l : List Byte) (s : State) : (setFifo l s).now = s.now := rfl
@[simp] theorem setFifo_link (l : List Byte) (s : State) : (setFifo l s).link = s.link := rfl
@[simp] theorem setFifo_setFifo (l k : List Byte) (s : State) :
    setFifo l (setFifo k s) = setFifo l s := rfl
@[simp] theorem setFifo_self (s : State) : setFifo s.sync.rxFifo s = s := rfl

/-- What a byte of the synchronizer leaves alone: all but the synchronizer, and of the link all but the
current snapshot and the readiness; the queue is not touched. -/
theorem syncByte_eq (b : Byte) (s : State) :
    (syncByte b s).2 = { s with
      sync := { (syncByte b s).2.sync with rxFifo := s.sync.rxFifo }
      link := { s.link with cur := (syncByte b s).2.link.cur, ready := (syncByte b s).2.link.ready } } := by
  unfold syncByte syncAwaitM1 syncAwaitM2 syncAwaitM3 syncLength syncPayload syncFinish frameComplete
  split
  · split <;> rfl
  · split
    · rfl
    · split <;> rfl
  · split
    · rfl
    · split <;> rfl
  · split
    · split
      · rfl
      · split <;> rfl
    · split <;> rfl

@[simp] theorem syncByte_fifo (b : Byte) (s : State) :
    (syncByte b s).2.sync.rxFifo = s.sync.rxFifo := by rw [syncByte_eq]

@[simp] theorem syncByte_input (b : Byte) (s : State) : (syncByte b s).2.input = s.input := by
  rw [syncByte_eq]

/-- The synchronizer's counters are in range, and its buffer is the snapshot outside the frame in
progress (40_serial_link.md R115, R117). -/
structure SyncOk (s : State) : Prop where
  lenLe : s.sync.len.toNat ≤ statusMaxLen
  countLe : s.sync.count.toNat ≤ if s.sync.state = .collect then s.sync.len.toNat else 0
  bufCur : ∀ k < 4, s.sync.count.toNat ≤ k + 1 → s.sync.buf.get k = s.link.cur.get k

theorem Quad.get_set (q : Quad) (j k : Nat) (v : Byte) (hj : j < 4) (hk : k < 4) :
    (q.set j v).get k = if k = j then v else q.get k := by
  interval_cases j <;> interval_cases k <;> rfl

theorem Quad.get_copyFirst (q src : Quad) (n k : Nat) (hk : k < 4) :
    (q.copyFirst src n).get k = if k < n then src.get k else q.get k := by
  interval_cases k <;> rfl

theorem Quad.ext_of_get {p q : Quad} (h : ∀ k < 4, p.get k = q.get k) : p = q := by
  have h0 := h 0 (by decide)
  have h1 := h 1 (by decide)
  have h2 := h 2 (by decide)
  have h3 := h 3 (by decide)
  cases p
  cases q
  simp only [Quad.get] at h0 h1 h2 h3
  simp only [h0, h1, h2, h3]

/-- An interrupt point leaves the synchronizer's own state alone. -/
theorem SyncOk.ip {s t : State} (h : IpKeeps s t) (k : SyncOk s) : SyncOk t := by
  constructor
  · rw [h.sync]; exact k.lenLe
  · rw [h.sync]; exact k.countLe
  · rw [h.sync, h.link]; exact k.bufCur

theorem SyncOk.dequeue {s : State} (rest : List Byte) (k : SyncOk s) :
    SyncOk (setFifo rest s) := ⟨k.lenLe, k.countLe, k.bufCur⟩

theorem toNat_one3 : (1 : BitVec 3).toNat = 1 := rfl

theorem frameComplete_ok {s : State} (hl : s.sync.len.toNat ≤ statusMaxLen)
    (hb : ∀ k < 4, s.sync.count.toNat ≤ k + 1 → s.sync.buf.get k = s.link.cur.get k)
    (hc : s.sync.count = s.sync.len + 1) : SyncOk (frameComplete s) := by
  refine ⟨hl, by simp [frameComplete], fun k hk _ => ?_⟩
  show s.sync.buf.get k = (s.link.cur.copyFirst s.sync.buf s.sync.len.toNat).get k
  rw [Quad.get_copyFirst _ _ _ _ hk]
  split
  · rfl
  · next hn =>
    refine hb k hk ?_
    rw [hc]
    simp only [statusMaxLen] at hl
    simp only [BitVec.toNat_add, toNat_one3]
    omega

theorem syncByte_ok (b : Byte) {s : State} (h : SyncOk s) : SyncOk (syncByte b s).2 := by
  obtain ⟨hl, hc, hb⟩ := h
  have hl' : s.sync.len.toNat ≤ 4 := hl
  unfold syncByte
  split
  · next e =>
    rw [if_neg (by simp [e])] at hc
    unfold syncAwaitM1
    split
    · exact ⟨hl, by simpa using hc, hb⟩
    · exact ⟨hl, by simpa [e] using hc, hb⟩
  · next e =>
    rw [if_neg (by simp [e])] at hc
    unfold syncAwaitM2
    split
    · exact ⟨hl, by simpa using hc, hb⟩
    · split
      · exact ⟨hl, by simpa using hc, hb⟩
      · exact ⟨hl, by simpa [e] using hc, hb⟩
  · next e =>
    rw [if_neg (by simp [e])] at hc
    have hb0 : ∀ k < 4, s.sync.buf.get k = s.link.cur.get k := fun k hk => hb k hk (by omega)
    unfold syncAwaitM3
    split
    · exact ⟨hl, by simp, fun k hk _ => hb0 k hk⟩
    · split
      · exact ⟨hl, by simpa using hc, hb⟩
      · exact ⟨hl, by simpa [e] using hc, hb⟩
  · next e =>
    rw [if_pos e] at hc
    split
    · next h0 =>
      have hb0 : ∀ k < 4, s.sync.buf.get k = s.link.cur.get k := fun k hk => hb k hk (by simp [h0])
      unfold syncLength
      split
      · exact ⟨hl, by simp, fun k hk _ => hb0 k hk⟩
      · next hn =>
        simp only [statusMaxLen, Nat.not_lt] at hn
        have hlen : (b.extractLsb' 0 3).toNat = b.toNat := by
          simp only [BitVec.extractLsb'_toNat, Nat.shiftRight_zero]
          omega
        unfold syncFinish
        split
        · next hf => exact frameComplete_ok (by simpa [statusMaxLen, hlen]) (fun k hk _ => hb0 k hk) hf
        · next hf =>
          refine ⟨by simpa [statusMaxLen, hlen], ?_, fun k hk _ => hb0 k hk⟩
          simp only [State.withSync_sync, e, if_true, hlen] at hf ⊢
          have : b.toNat ≠ 0 := by
            intro hb1
            apply hf
            apply BitVec.eq_of_toNat_eq
            simp [hlen, hb1]
          simp only [toNat_one3]
          omega
    · next h0 =>
      have h1 : 1 ≤ s.sync.count.toNat := by
        rcases Nat.eq_zero_or_pos s.sync.count.toNat with h | h
        · exact absurd (BitVec.eq_of_toNat_eq (by simpa using h)) h0
        · exact h
      have hc1 : (s.sync.count + 1).toNat = s.sync.count.toNat + 1 := by
        simp only [BitVec.toNat_add, toNat_one3]
        omega
      have hbuf : ∀ k < 4, (s.sync.count + 1).toNat ≤ k + 1 →
          (s.sync.buf.set (s.sync.count.toNat - 1) b).get k = s.link.cur.get k := by
        intro k hk hck
        rw [Quad.get_set _ _ _ _ (by omega) hk, if_neg (by omega)]
        exact hb k hk (by omega)
      unfold syncPayload syncFinish
      split
      · next hf => exact frameComplete_ok hl hbuf hf
      · next hf =>
        refine ⟨hl, ?_, hbuf⟩
        simp only [State.withSync_sync, e, if_true] at hf ⊢
        rw [hc1]
        rcases Nat.lt_or_ge s.sync.count.toNat s.sync.len.toNat with h | h
        · exact h
        · exact absurd (by rw [BitVec.eq_of_toNat_eq (Nat.le_antisymm hc h)]) hf

/-! ### The loop of SyncCall -/

/-- The bytes the loop can still take. -/
def syncMeasure (s : State) : Nat := s.sync.rxFifo.length + s.input.ipSched.flatten.length

/-- One pass of the loop that takes a byte leaves fewer. -/
theorem syncMeasure_pass {s : State} {b : Byte} {rest : List Byte}
    (h : (interruptPoint s).sync.rxFifo = b :: rest) :
    syncMeasure (syncByte b (setFifo rest (interruptPoint s))).2 + 1 ≤ syncMeasure s := by
  have hm := interruptPoint_fuel s
  rw [h] at hm
  simp only [syncMeasure, syncByte_fifo, syncByte_input, setFifo_fifo, setFifo_input,
    List.length_cons] at hm ⊢
  omega

/-- With fuel for the bytes it can take, the loop is one pass and the loop again: the fuel never shows
(entry 17). -/
theorem syncLoop_pass (tCall : Nat) (n : Nat) (s : State) (hn : syncMeasure s < n) :
    syncLoop tCall n s =
      match (interruptPoint s).sync.rxFifo with
      | [] => (false, interruptPoint s)
      | b :: rest =>
        if syncGuardMs ≤ tickSub (interruptPoint s).cfg (interruptPoint s).now tCall then
          (false, interruptPoint s)
        else
          let r := syncByte b (setFifo rest (interruptPoint s))
          if r.1 then (true, r.2) else syncLoop tCall (n - 1) r.2 := by
  cases n with
  | zero => omega
  | succ n => rfl

/-- Two fuels that suffice give one loop. -/
theorem syncLoop_fuel (tCall : Nat) (m : Nat) : ∀ (n : Nat) (s : State), syncMeasure s < m →
    syncMeasure s < n → syncLoop tCall m s = syncLoop tCall n s := by
  induction m with
  | zero => intro n s hm; omega
  | succ m ih =>
    intro n s hm hn
    rw [syncLoop_pass _ _ _ hm, syncLoop_pass _ _ _ hn]
    split
    · rfl
    · next b rest h =>
      have := syncMeasure_pass h
      dsimp only
      rw [Nat.add_sub_cancel, ih (n - 1) (syncByte b (setFifo rest (interruptPoint s))).2 (by omega) (by omega)]

/-- A property that the interrupt points and the bytes keep, the loop keeps. -/
theorem syncLoop_keeps {P : State → Prop} (hip : ∀ s, P s → P (interruptPoint s))
    (hbyte : ∀ s b rest, P s → s.sync.rxFifo = b :: rest →
      P (syncByte b (setFifo rest s)).2)
    (tCall n : Nat) (s : State) (h : P s) : P (syncLoop tCall n s).2 := by
  induction n generalizing s with
  | zero => exact h
  | succ n ih =>
    unfold syncLoop
    dsimp only
    split
    · exact hip s h
    · next b rest e =>
      split
      · exact hip s h
      · have := hbyte _ b rest (hip s h) e
        split
        · exact this
        · exact ih _ this

/-! ### The loop where no stimulus is in store -/

theorem tickSub_self (c : Cfg) (a : Nat) : tickSub c a a = 0 := by
  unfold tickSub wrapTick
  have h := Nat.div_add_mod a (2 ^ c.tickBits)
  have hl := Nat.mod_lt a (Nat.pow_pos (n := c.tickBits) (show 0 < 2 by decide))
  have e : a + (2 ^ c.tickBits - a % 2 ^ c.tickBits) =
      2 ^ c.tickBits * (a / 2 ^ c.tickBits + 1) := by
    rw [Nat.mul_add]
    omega
  rw [e, Nat.mul_mod_right]

theorem syncByte_quiet {s : State} (h : s.quietPoints) (b : Byte) : (syncByte b s).2.quietPoints := by
  show (syncByte b s).2.input.ipSched = []
  rw [syncByte_input]
  exact h

/-- The queue does not steer the synchronizer. -/
theorem syncByte_setFifo (b : Byte) (l : List Byte) (s : State) :
    syncByte b (setFifo l s) = ((syncByte b s).1, setFifo l (syncByte b s).2) := by
  unfold syncByte syncAwaitM1 syncAwaitM2 syncAwaitM3 syncLength syncPayload syncFinish frameComplete
  cases h : s.sync.state
  · simp only [setFifo, State.withSync_sync, h]
    split
    · rfl
    · rw [h]
  · simp only [setFifo, State.withSync_sync, h]
    split
    · rfl
    · split
      · rfl
      · rw [h]
  · simp only [setFifo, State.withSync_sync, h]
    split
    · rfl
    · split
      · rfl
      · rw [h]
  · simp only [setFifo, State.withSync_sync, h]
    by_cases h0 : s.sync.count = 0
    · rw [if_pos h0, if_pos h0]
      by_cases h4 : statusMaxLen < b.toNat
      · rw [if_pos h4, if_pos h4]
        rfl
      · rw [if_neg h4, if_neg h4]
        by_cases hf : (1 : BitVec 3) = b.extractLsb' 0 3 + 1
        · rw [if_pos hf, if_pos hf]
          rfl
        · rw [if_neg hf, if_neg hf]
          rfl
    · rw [if_neg h0, if_neg h0]
      by_cases hf : s.sync.count + 1 = s.sync.len + 1
      · rw [if_pos hf, if_pos hf]
        rfl
      · rw [if_neg hf, if_neg hf]
        rfl

theorem syncCall_nil {s : State} (hq : s.quietPoints) (e : s.sync.rxFifo = []) :
    syncCall s = (false, s) := by
  rw [syncCall, syncLoop_pass _ _ _ (show syncMeasure s < syncFuel s from Nat.lt_succ_self _),
    interruptPoint_quiet hq, e]

/-- SyncCall takes the first queued byte; the guard does not run out, since the tick does not move. -/
theorem syncCall_cons {s : State} (hq : s.quietPoints) (b : Byte) (rest : List Byte)
    (e : s.sync.rxFifo = b :: rest) :
    syncCall s = if (syncByte b s).1 then (true, setFifo rest (syncByte b s).2)
      else syncCall (setFifo rest (syncByte b s).2) := by
  have hm := syncMeasure_pass (s := s) (b := b) (rest := rest) (by rw [interruptPoint_quiet hq]; exact e)
  rw [interruptPoint_quiet hq, syncByte_setFifo] at hm
  have hn : (setFifo rest (syncByte b s).2).now = s.now := by rw [syncByte_eq]; rfl
  rw [syncCall, syncLoop_pass _ _ _ (show syncMeasure s < syncFuel s from Nat.lt_succ_self _),
    interruptPoint_quiet hq, e]
  dsimp only at hm ⊢
  rw [if_neg (by rw [tickSub_self]; decide), syncByte_setFifo]
  dsimp only
  rw [syncCall, hn, syncLoop_fuel s.now (syncFuel s - 1) (syncFuel (setFifo rest (syncByte b s).2)) _
    (by unfold syncMeasure at hm ⊢; unfold syncFuel; omega) (Nat.lt_succ_self _)]

/-! ### What the poll agent's operations keep -/

/-- The tick and every timer are TICK_BITS values (10_state.md R22, R47). -/
structure TicksOk (s : State) : Prop where
  nowLt : s.now < 2 ^ s.cfg.tickBits
  reqLt : s.link.tReq.start < 2 ^ s.cfg.tickBits
  echoLt : s.link.tEcho.start < 2 ^ s.cfg.tickBits
  blockLt : s.fsm.tBlock.start < 2 ^ s.cfg.tickBits
  debounceLt : s.fsm.tDebounce.start < 2 ^ s.cfg.tickBits
  bootLt : s.fsm.tBoot.start < 2 ^ s.cfg.tickBits
  graceLt : s.fsm.tGrace.start < 2 ^ s.cfg.tickBits

/-- What every operation of the poll agent keeps, whatever is run at its interrupt points. -/
structure PollSafe (s t : State) : Prop where
  cfg : t.cfg = s.cfg
  refused : t.refused = s.refused
  pending : t.input.pending = s.input.pending
  issue : t.input.issue = s.input.issue
  scripted : t.scripted = s.scripted
  memWf : s.mem.wf = true → t.mem.wf = true
  sticky : s.faultRegfileOob = true → t.faultRegfileOob = true
  fifo : s.sync.rxFifo.length ≤ s.cfg.rxFifoDepth → t.sync.rxFifo.length ≤ t.cfg.rxFifoDepth
  busOk : BusOk s.bus → BusOk t.bus
  syncOk : SyncOk s → SyncOk t
  ticks : TicksOk s → TicksOk t

theorem PollSafe.refl (s : State) : PollSafe s s := ⟨rfl, rfl, rfl, rfl, rfl, id, id, id, id, id, id⟩

theorem PollSafe.trans {s t u : State} (h : PollSafe s t) (k : PollSafe t u) : PollSafe s u :=
  ⟨k.cfg.trans h.cfg, k.refused.trans h.refused, k.pending.trans h.pending,
    k.issue.trans h.issue, k.scripted.trans h.scripted, k.memWf ∘ h.memWf, k.sticky ∘ h.sticky, k.fifo ∘ h.fifo,
    k.busOk ∘ h.busOk, k.syncOk ∘ h.syncOk, k.ticks ∘ h.ticks⟩

/-- What an interrupt point keeps, the poll agent keeps. -/
theorem IpSafe.toPoll {s t : State} (h : IpSafe s t) : PollSafe s t := by
  refine ⟨h.cfg, h.refused, h.pending, h.issue, h.scripted, h.memWf, h.sticky, h.fifo, h.busOk,
    SyncOk.ip h.toIpKeeps, fun k => ⟨h.nowLt k.nowLt, ?_, ?_, ?_, ?_, ?_, ?_⟩⟩
  · rw [h.link, h.cfg]; exact k.reqLt
  · rw [h.link, h.cfg]; exact k.echoLt
  · rw [h.fsm, h.cfg]; exact k.blockLt
  · rw [h.fsm, h.cfg]; exact k.debounceLt
  · rw [h.fsm, h.cfg]; exact k.bootLt
  · rw [h.fsm, h.cfg]; exact k.graceLt

/-- A write of the mode machine's own variables. -/
theorem PollSafe.withFsm (s : State) (v : Fsm)
    (h : TicksOk s → TicksOk (s.withFsm v)) : PollSafe s (s.withFsm v) :=
  ⟨rfl, rfl, rfl, rfl, rfl, id, id, id, id, fun k => ⟨k.lenLe, k.countLe, k.bufCur⟩, h⟩

/-- A write of the link's own variables but the current snapshot. -/
theorem PollSafe.withLink (s : State) (v : Link) (hc : v.cur = s.link.cur)
    (h : TicksOk s → TicksOk (s.withLink v)) : PollSafe s (s.withLink v) :=
  ⟨rfl, rfl, rfl, rfl, rfl, id, id, id, id,
    fun k => ⟨k.lenLe, k.countLe, by rw [State.withLink_link, hc]; exact k.bufCur⟩, h⟩

/-- One pass of the loop that takes a byte. -/
theorem syncTake_safe {s : State} {b : Byte} {rest : List Byte} (e : s.sync.rxFifo = b :: rest) :
    PollSafe s (syncByte b (setFifo rest s)).2 := by
  have h := syncByte_eq b (setFifo rest s)
  refine ⟨by rw [h]; rfl, by rw [h]; rfl, by rw [h]; rfl, by rw [h]; rfl, by rw [h]; rfl,
    by rw [h]; exact id,
    by rw [h]; exact id, fun k => ?_, by rw [h]; exact id, fun k => syncByte_ok b (k.dequeue rest),
    fun k => ?_⟩
  · rw [syncByte_fifo, h]
    rw [e] at k
    exact Nat.le_of_succ_le k
  · rw [h]
    exact ⟨k.nowLt, k.reqLt, k.echoLt, k.blockLt, k.debounceLt, k.bootLt, k.graceLt⟩

theorem syncLoop_safe (tCall n : Nat) (s : State) : PollSafe s (syncLoop tCall n s).2 :=
  syncLoop_keeps (P := PollSafe s) (fun t h => h.trans (interruptPoint_safe t).toPoll)
    (fun _ _ _ h e => h.trans (syncTake_safe e)) tCall n s (PollSafe.refl s)

theorem syncCall_safe (s : State) : PollSafe s (syncCall s).2 := syncLoop_safe _ _ s

theorem issueStatusReq_safe (s : State) : PollSafe s (issueStatusReq s) := by
  have h : PollSafe s (s.withLink { s.link with tReq := Timer.arm s.now }) :=
    PollSafe.withLink s _ rfl fun k => ⟨k.nowLt, k.nowLt, k.echoLt, k.blockLt, k.debounceLt, k.bootLt,
      k.graceLt⟩
  exact h.trans (sendFramePoll_safe _ _).toPoll

theorem statusRequestCheck_safe (s : State) : PollSafe s (statusRequestCheck s) := by
  unfold statusRequestCheck
  split
  · exact issueStatusReq_safe s
  · exact PollSafe.refl s

theorem setPrev_safe (s : State) (q : Quad) : PollSafe s (s.withLink { s.link with prev := q }) :=
  PollSafe.withLink s _ rfl fun k => ⟨k.nowLt, k.reqLt, k.echoLt, k.blockLt, k.debounceLt, k.bootLt,
    k.graceLt⟩

theorem react0_safe (s : State) : PollSafe s (react0 s) :=
  (regWritePoll_safe _ _ s).toPoll.trans (setPrev_safe _ _)

theorem react1_safe (s : State) : PollSafe s (react1 s) := by
  unfold react1
  extract_lets t u v
  have ht : PollSafe s t := (regWritePoll_safe _ _ s).toPoll
  have hu : PollSafe t u := (regWritePoll_safe _ _ t).toPoll
  have hv : PollSafe u v := by
    unfold v
    split
    · exact (postEvent_safe _ u).toPoll
    · exact PollSafe.refl u
  exact ((ht.trans hu).trans hv).trans (setPrev_safe v _)

theorem applyModuleVolume_safe (v : BitVec 7) (s : State) : PollSafe s (applyModuleVolume v s) := by
  have h : PollSafe s (s.withFsm { s.fsm with volume := v }) :=
    PollSafe.withFsm s _ fun k => ⟨k.nowLt, k.reqLt, k.echoLt, k.blockLt, k.debounceLt, k.bootLt,
      k.graceLt⟩
  unfold applyModuleVolume
  dsimp only
  split
  · exact h
  · exact (h.trans (postEvent_safe _ _).toPoll).trans (PollSafe.withLink _ _ rfl fun k =>
      ⟨k.nowLt, k.reqLt, k.echoLt, k.blockLt, k.debounceLt, k.bootLt, k.graceLt⟩)

theorem react2_safe (s : State) : PollSafe s (react2 s) := by
  unfold react2
  extract_lets vol t u
  have ht : PollSafe s t := (regWritePoll_safe _ _ s).toPoll
  have hu : PollSafe t u := by
    unfold u
    split
    · exact PollSafe.refl t
    · exact applyModuleVolume_safe _ t
  exact (ht.trans hu).trans (setPrev_safe u _)

theorem react3_safe (s : State) : PollSafe s (react3 s) :=
  (regWritePoll_safe _ _ s).toPoll.trans (setPrev_safe _ _)

theorem diff_safe (s : State) : PollSafe s (diff s) := by
  unfold diff
  split
  · exact react0_safe s
  · split
    · exact react1_safe s
    · split
      · exact react2_safe s
      · split
        · exact react3_safe s
        · exact PollSafe.refl s

/-- What the link's part of a POLL keeps. -/
theorem linkStep_safe (s : State) : PollSafe s (linkStep s) := by
  unfold linkStep
  dsimp only
  split
  · exact ((statusRequestCheck_safe s).trans (syncCall_safe _)).trans (diff_safe _)
  · exact (statusRequestCheck_safe s).trans (syncCall_safe _)

end Sys2Proof.Machine
end

