-- ==== Sys2Proof/Laws/Encoding.lean ====
section
/-! SUPPORT. Laws/Encoding.lean: the fields of the three word formats read back from the words they are
put together in (30_encoding.md R80, R87, R90). -/

namespace Sys2Proof

/-- The bits of the upper part of a concatenation. -/
theorem extract_upper {m n k : Nat} (a : BitVec m) (b : BitVec n) (i : Nat) :
    (a ++ b).extractLsb' (n + i) k = a.extractLsb' i k := by
  ext j hj
  simp only [BitVec.getElem_extractLsb', BitVec.getLsbD_append]
  rw [if_neg (by omega)]
  congr 1
  omega

/-- The bits of the lower part of a concatenation. -/
theorem extract_lower {m n k : Nat} (a : BitVec m) (b : BitVec n) (i : Nat) (h : i + k ≤ n) :
    (a ++ b).extractLsb' i k = b.extractLsb' i k := by
  ext j hj
  simp only [BitVec.getElem_extractLsb', BitVec.getLsbD_append]
  rw [if_pos (by omega)]

theorem extract_all {n : Nat} (b : BitVec n) : b.extractLsb' 0 n = b := by
  ext j hj
  simp

theorem stimKind_word (k o : Byte) : stimKind (k ++ o) = k :=
  (extract_upper k o 0).trans (extract_all k)

theorem stimOperand_word (k o : Byte) : stimOperand (k ++ o) = o :=
  (extract_lower k o 0 (by decide)).trans (extract_all o)

theorem record_index (i lo hi : Byte) : (i ++ lo ++ hi : RecWord).extractLsb' 16 8 = i :=
  (extract_upper (i ++ lo) hi 8).trans ((extract_upper i lo 0).trans (extract_all i))

theorem record_lo (i lo hi : Byte) : (i ++ lo ++ hi : RecWord).extractLsb' 8 8 = lo :=
  (extract_upper (i ++ lo) hi 0).trans ((extract_lower i lo 0 (by decide)).trans (extract_all lo))

theorem record_hi (i lo hi : Byte) : (i ++ lo ++ hi : RecWord).extractLsb' 0 8 = hi :=
  (extract_lower (i ++ lo) hi 0 (by decide)).trans (extract_all hi)

theorem frame_fields (a b c d e f : Byte) :
    (a ++ b ++ c ++ d ++ e ++ f : FrameWord).extractLsb' 40 8 = a ∧
    (a ++ b ++ c ++ d ++ e ++ f : FrameWord).extractLsb' 32 8 = b ∧
    (a ++ b ++ c ++ d ++ e ++ f : FrameWord).extractLsb' 24 8 = c ∧
    (a ++ b ++ c ++ d ++ e ++ f : FrameWord).extractLsb' 16 8 = d ∧
    (a ++ b ++ c ++ d ++ e ++ f : FrameWord).extractLsb' 8 8 = e ∧
    (a ++ b ++ c ++ d ++ e ++ f : FrameWord).extractLsb' 0 8 = f := by
  have u1 := fun i => extract_upper (k := 8) (a ++ b ++ c ++ d ++ e) f i
  have u2 := fun i => extract_upper (k := 8) (a ++ b ++ c ++ d) e i
  have u3 := fun i => extract_upper (k := 8) (a ++ b ++ c) d i
  have u4 := fun i => extract_upper (k := 8) (a ++ b) c i
  have l2 := (extract_lower (a ++ b ++ c ++ d) e 0 (k := 8) (by decide)).trans (extract_all e)
  have l3 := (extract_lower (a ++ b ++ c) d 0 (k := 8) (by decide)).trans (extract_all d)
  have l4 := (extract_lower (a ++ b) c 0 (k := 8) (by decide)).trans (extract_all c)
  have l5 := (extract_lower a b 0 (k := 8) (by decide)).trans (extract_all b)
  have l6 := (extract_upper a b 0 (k := 8)).trans (extract_all a)
  exact ⟨(u1 32).trans ((u2 24).trans ((u3 16).trans ((u4 8).trans l6))),
    (u1 24).trans ((u2 16).trans ((u3 8).trans ((u4 0).trans l5))),
    (u1 16).trans ((u2 8).trans ((u3 0).trans l4)),
    (u1 8).trans ((u2 0).trans l3),
    (u1 0).trans l2,
    (extract_lower (a ++ b ++ c ++ d ++ e) f 0 (by decide)).trans (extract_all f)⟩

end Sys2Proof
end

