-- ==== Sys2Proof/Laws/ModeMachine.lean ====
section
/-! SUPPORT. Laws/ModeMachine.lean: what the mode machine's operations can do: what all of them keep
(`PollSafe`), and what each makes of the variables a mode change is made of (`ModeCore`). -/

namespace Sys2Proof.Machine

theorem Tasks.get_set (t : Tasks) (m k : Mode) (v : TaskState) :
    (t.set m v).get k = if k = m then v else t.get k := by
  cases m <;> cases k <;> rfl

@[simp] theorem Tasks.get_set_same (t : Tasks) (m : Mode) (v : TaskState) : (t.set m v).get m = v := by
  rw [Tasks.get_set, if_pos rfl]

/-! ### The variables of a mode change -/

/-- The mode, its pending and saved modes, the sub-states and the factory flag. -/
structure ModeCore where
  mode : Mode
  next : Mode
  prev : Mode
  tasks : Tasks
  factory : Bool

/-- The variables of a mode change in a state. -/
def State.core (s : State) : ModeCore :=
  ⟨s.fsm.mode, s.fsm.nextMode, s.fsm.prevMode, s.fsm.tasks, s.fsm.factoryInProgress⟩

/-- RequestMode on those variables (42_mode_fsm.md R216). -/
def ModeCore.request (t : Mode) (c : ModeCore) : ModeCore :=
  if taskActive (c.tasks.get c.mode) then { c with next := t, tasks := c.tasks.set c.mode .stop }
  else c

/-- The Stop handler's common part on those variables (R217). -/
def ModeCore.leave (c : ModeCore) : ModeCore :=
  { c with mode := c.next, tasks := c.tasks.set c.mode .idle }

theorem core_of_fsm {s t : State} (h : t.fsm = { s.fsm with
    event := t.fsm.event, scanInProgress := t.fsm.scanInProgress }) : t.core = s.core := by
  unfold State.core
  rw [h]

theorem IpSafe.core {s t : State} (h : IpSafe s t) : t.core = s.core := core_of_fsm h.fsm

@[simp] theorem interruptPoint_core (s : State) : (interruptPoint s).core = s.core :=
  (interruptPoint_safe s).core
@[simp] theorem sendFramePoll_core (p : CmdPair) (s : State) : (sendFramePoll p s).core = s.core :=
  (sendFramePoll_safe p s).core
@[simp] theorem regWritePoll_core (i : Fin 12) (v : Byte) (s : State) :
    (regWritePoll i v s).core = s.core := (regWritePoll_safe i v s).core
@[simp] theorem regWrite_core (s : State) (i : Nat) (v : Byte) : (s.regWrite i v).core = s.core :=
  (regWrite_safe s i v).core
@[simp] theorem postEvent_core (e : Byte) (s : State) : (postEvent e s).core = s.core := rfl
@[simp] theorem withLink_core (s : State) (v : Link) : (s.withLink v).core = s.core := rfl
@[simp] theorem withSync_core (s : State) (v : Sync) : (s.withSync v).core = s.core := rfl
@[simp] theorem setFromModule_core (v : Bool) (s : State) : (setFromModule v s).core = s.core := rfl
@[simp] theorem armBlock_core (s : State) : (armBlock s).core = s.core := rfl
@[simp] theorem armEcho_core (s : State) : (armEcho s).core = s.core := rfl
@[simp] theorem disarmGrace_core (s : State) : (disarmGrace s).core = s.core := rfl
@[simp] theorem setDiscLatch_core (v : Bool) (s : State) : (setDiscLatch v s).core = s.core := rfl
@[simp] theorem setTask_core (m : Mode) (v : TaskState) (s : State) :
    (setTask m v s).core = { s.core with tasks := s.core.tasks.set m v } := rfl
@[simp] theorem setNextMode_core (m : Mode) (s : State) :
    (setNextMode m s).core = { s.core with next := m } := rfl
@[simp] theorem setPrevMode_core (m : Mode) (s : State) :
    (setPrevMode m s).core = { s.core with prev := m } := rfl
@[simp] theorem stopCommon_core (s : State) : (stopCommon s).core = s.core.leave := rfl
@[simp] theorem requestMode_core (t : Mode) (s : State) :
    (requestMode t s).core = s.core.request t := by
  unfold requestMode ModeCore.request
  show (if taskActive (s.fsm.tasks.get s.fsm.mode) then _ else s).core =
    if taskActive (s.fsm.tasks.get s.fsm.mode) then _ else _
  split <;> rfl
@[simp] theorem issueBt_core (s : State) : (issueBt s).core = s.core := by simp [issueBt]
@[simp] theorem issueSpotify_core (s : State) : (issueSpotify s).core = s.core := by
  simp [issueSpotify]
@[simp] theorem issueSwitchSpotify_core (s : State) : (issueSwitchSpotify s).core = s.core := by
  simp [issueSwitchSpotify]
@[simp] theorem issueStandby_core (s : State) : (issueStandby s).core = s.core := by
  simp [issueStandby]
@[simp] theorem issueFactoryReset_core (s : State) : (issueFactoryReset s).core = s.core := by
  simp [issueFactoryReset]
@[simp] theorem issueUnmute_core (s : State) : (issueUnmute s).core = s.core := by
  simp [issueUnmute]
@[simp] theorem issueVolUp_core (s : State) : (issueVolUp s).core = s.core := by simp [issueVolUp]
@[simp] theorem issueVolDown_core (s : State) : (issueVolDown s).core = s.core := by
  simp [issueVolDown]
@[simp] theorem switchWhenOffline_core (s : State) : (switchWhenOffline s).core = s.core := by
  simp only [switchWhenOffline, setDiscLatch_core]
  split
  · exact issueSwitchSpotify_core s
  · rfl
@[simp] theorem setBootReady_core (s : State) : (setBootReady s).core = s.core := by
  simp [setBootReady]
@[simp] theorem ackModuleVolume_core (ev : Byte) (s : State) : (ackModuleVolume ev s).core = s.core := by
  unfold ackModuleVolume
  split <;> rfl
@[simp] theorem diagCount_core (s : State) : (diagCount s).core = s.core := by
  unfold diagCount
  dsimp only
  split
  · rw [regWritePoll_core]
    rfl
  · rfl
@[simp] theorem clearEvent_core (s : State) : (clearEvent s).core = s.core := by simp [clearEvent]

/-- The link's part of a POLL changes no variable of a mode change. -/
@[simp] theorem linkStep_core (s : State) : (linkStep s).core = s.core := by
  have h1 : (statusRequestCheck s).core = s.core := by
    unfold statusRequestCheck issueStatusReq
    split
    · rw [sendFramePoll_core, withLink_core]
    · rfl
  have h2 : ∀ t : State, (syncCall t).2.core = t.core := fun t =>
    syncLoop_keeps (P := fun u => u.core = t.core) (fun u h => by rw [interruptPoint_core, h])
      (fun u b rest h _ => by rw [syncByte_eq]; exact h) _ _ t rfl
  have h3 : ∀ t : State, (diff t).core = t.core := by
    intro t
    unfold diff react0 react1 react2 react3 applyModuleVolume
    dsimp only
    split
    · rw [withLink_core, regWritePoll_core]
    · split
      · rw [withLink_core]
        split
        · rw [postEvent_core, regWritePoll_core, regWritePoll_core]
        · rw [regWritePoll_core, regWritePoll_core]
      · split
        · rw [withLink_core]
          split
          · rw [regWritePoll_core]
          · split
            · exact regWritePoll_core _ _ _
            · exact regWritePoll_core _ _ _
        · split
          · rw [withLink_core, regWritePoll_core]
          · rfl
  unfold linkStep
  dsimp only
  split
  · rw [h3, h2, h1]
  · rw [h2, h1]

/-! ### What the mode machine keeps -/

theorem PollSafe.fsmSameTimers (s : State) (v : Fsm) (h1 : v.tBlock = s.fsm.tBlock)
    (h2 : v.tDebounce = s.fsm.tDebounce) (h3 : v.tBoot = s.fsm.tBoot)
    (h4 : v.tGrace.start = s.fsm.tGrace.start) : PollSafe s (s.withFsm v) := by
  refine PollSafe.withFsm s v fun k => ⟨k.nowLt, k.reqLt, k.echoLt, ?_, ?_, ?_, ?_⟩
  · rw [State.withFsm_fsm, h1]; exact k.blockLt
  · rw [State.withFsm_fsm, h2]; exact k.debounceLt
  · rw [State.withFsm_fsm, h3]; exact k.bootLt
  · rw [State.withFsm_fsm, h4]; exact k.graceLt

theorem setTask_safe (m : Mode) (v : TaskState) (s : State) : PollSafe s (setTask m v s) :=
  PollSafe.fsmSameTimers s _ rfl rfl rfl rfl
theorem setFromModule_safe (v : Bool) (s : State) : PollSafe s (setFromModule v s) :=
  PollSafe.fsmSameTimers s _ rfl rfl rfl rfl
theorem setNextMode_safe (m : Mode) (s : State) : PollSafe s (setNextMode m s) :=
  PollSafe.fsmSameTimers s _ rfl rfl rfl rfl
theorem setPrevMode_safe (m : Mode) (s : State) : PollSafe s (setPrevMode m s) :=
  PollSafe.fsmSameTimers s _ rfl rfl rfl rfl
theorem disarmGrace_safe (s : State) : PollSafe s (disarmGrace s) :=
  PollSafe.fsmSameTimers s _ rfl rfl rfl rfl
theorem setDiscLatch_safe (v : Bool) (s : State) : PollSafe s (setDiscLatch v s) :=
  PollSafe.fsmSameTimers s _ rfl rfl rfl rfl
theorem stopCommon_safe (s : State) : PollSafe s (stopCommon s) :=
  PollSafe.fsmSameTimers s _ rfl rfl rfl rfl
theorem armBlock_safe (s : State) : PollSafe s (armBlock s) :=
  PollSafe.withFsm s _ fun k => ⟨k.nowLt, k.reqLt, k.echoLt, k.nowLt, k.debounceLt, k.bootLt, k.graceLt⟩
theorem armEcho_safe (s : State) : PollSafe s (armEcho s) :=
  PollSafe.withLink s _ rfl fun k =>
    ⟨k.nowLt, k.reqLt, k.nowLt, k.blockLt, k.debounceLt, k.bootLt, k.graceLt⟩

theorem requestMode_safe (t : Mode) (s : State) : PollSafe s (requestMode t s) := by
  unfold requestMode
  split
  · exact (setNextMode_safe t s).trans (setTask_safe _ _ _)
  · exact PollSafe.refl s

theorem issueBt_safe (s : State) : PollSafe s (issueBt s) :=
  (sendFramePoll_safe _ s).toPoll.trans (armBlock_safe _)
theorem issueSpotify_safe (s : State) : PollSafe s (issueSpotify s) :=
  (sendFramePoll_safe _ s).toPoll.trans (armBlock_safe _)
theorem issueSwitchSpotify_safe (s : State) : PollSafe s (issueSwitchSpotify s) :=
  (sendFramePoll_safe _ s).toPoll.trans (armBlock_safe _)
theorem issueStandby_safe (s : State) : PollSafe s (issueStandby s) :=
  (sendFramePoll_safe _ s).toPoll.trans (armBlock_safe _)
theorem issueVolUp_safe (s : State) : PollSafe s (issueVolUp s) :=
  (sendFramePoll_safe _ s).toPoll.trans (armEcho_safe _)
theorem issueVolDown_safe (s : State) : PollSafe s (issueVolDown s) :=
  (sendFramePoll_safe _ s).toPoll.trans (armEcho_safe _)
theorem issueUnmute_safe (s : State) : PollSafe s (issueUnmute s) := (sendFramePoll_safe _ s).toPoll
theorem setReady_safe (v : Bool) (s : State) : PollSafe s (s.withLink { s.link with ready := v }) :=
  PollSafe.withLink s _ rfl fun k =>
    ⟨k.nowLt, k.reqLt, k.echoLt, k.blockLt, k.debounceLt, k.bootLt, k.graceLt⟩
theorem issueFactoryReset_safe (s : State) : PollSafe s (issueFactoryReset s) :=
  (sendFramePoll_safe _ s).toPoll.trans (setReady_safe _ _)

theorem acceptToggle_safe (t : Mode) (s : State) : PollSafe s (acceptToggle t s) := by
  have h : PollSafe s (s.withFsm { s.fsm with tDebounce := Timer.arm s.now }) :=
    PollSafe.withFsm s _ fun k =>
      ⟨k.nowLt, k.reqLt, k.echoLt, k.blockLt, k.nowLt, k.bootLt, k.graceLt⟩
  exact (h.trans (setFromModule_safe _ _)).trans (requestMode_safe _ _)

theorem toggle_safe (s : State) : PollSafe s (toggle s) := by
  unfold toggle
  split
  · exact PollSafe.refl s
  · split
    · split
      · exact PollSafe.refl s
      · exact acceptToggle_safe _ s
    · exact PollSafe.refl s

theorem acceptModuleMode_safe (t : Mode) (s : State) : PollSafe s (acceptModuleMode t s) := by
  unfold acceptModuleMode
  split
  · exact ((setPrevMode_safe _ s).trans (setFromModule_safe _ _)).trans (requestMode_safe _ _)
  · exact (setFromModule_safe _ _).trans (requestMode_safe _ _)

theorem moduleMode_safe (s : State) : PollSafe s (moduleMode s) := by
  unfold moduleMode
  split
  · split
    · exact PollSafe.refl s
    · split
      · exact PollSafe.refl s
      · exact acceptModuleMode_safe _ s
  · exact PollSafe.refl s

theorem power_safe (s : State) : PollSafe s (power s) :=
  ((setPrevMode_safe _ s).trans (setFromModule_safe _ _)).trans (requestMode_safe _ _)

theorem runEvents_safe (ev : Byte) (s : State) : PollSafe s (runEvents ev s) := by
  unfold runEvents
  split
  · exact toggle_safe s
  · split
    · exact moduleMode_safe s
    · split
      · exact power_safe s
      · exact PollSafe.refl s

theorem setBootReady_safe (s : State) : PollSafe s (setBootReady s) :=
  (interruptPoint_safe s).toPoll.trans (regWrite_safe _ _ _).toPoll

theorem bootingFunction_safe (s : State) : PollSafe s (bootingFunction s) := by
  unfold bootingFunction
  split
  · unfold bootIdle
    split
    · exact setTask_safe _ _ s
    · exact PollSafe.refl s
  · have h : PollSafe (setFromModule false s) ((setFromModule false s).withFsm
        { (setFromModule false s).fsm with tBoot := Timer.arm s.now }) :=
      PollSafe.withFsm _ _ fun k =>
        ⟨k.nowLt, k.reqLt, k.echoLt, k.blockLt, k.debounceLt, k.nowLt, k.graceLt⟩
    exact ((setFromModule_safe false s).trans h).trans (setTask_safe _ _ _)
  · unfold bootRun
    split
    · exact (setNextMode_safe _ s).trans (setTask_safe _ _ _)
    · exact PollSafe.refl s
  · exact PollSafe.refl s
  · have h : PollSafe (setBootReady s) ((setBootReady s).withFsm
        { (setBootReady s).fsm with tBoot := (setBootReady s).fsm.tBoot.disarm }) :=
      PollSafe.withFsm _ _ fun k =>
        ⟨k.nowLt, k.reqLt, k.echoLt, k.blockLt, k.debounceLt, k.bootLt, k.graceLt⟩
    exact ((setBootReady_safe s).trans h).trans (stopCommon_safe _)

theorem btFunction_safe (ev : Byte) (s : State) : PollSafe s (btFunction ev s) := by
  unfold btFunction
  split
  · exact setTask_safe _ _ s
  · unfold btInit
    split
    · exact (setFromModule_safe _ s).trans (setTask_safe _ _ _)
    · exact (issueBt_safe s).trans (setTask_safe _ _ _)
  · exact runEvents_safe ev s
  · exact PollSafe.refl s
  · exact stopCommon_safe s

theorem grace_safe (s : State) : PollSafe s (grace s) := by
  unfold grace
  split
  · exact disarmGrace_safe s
  · split
    · split
      · exact ((disarmGrace_safe s).trans (setFromModule_safe _ _)).trans (requestMode_safe _ _)
      · exact PollSafe.refl s
    · exact PollSafe.withFsm s _ fun k =>
        ⟨k.nowLt, k.reqLt, k.echoLt, k.blockLt, k.debounceLt, k.bootLt, k.nowLt⟩

theorem spotifyFunction_safe (ev : Byte) (s : State) : PollSafe s (spotifyFunction ev s) := by
  unfold spotifyFunction
  split
  · exact setTask_safe _ _ s
  · unfold spotifyInit
    split
    · exact ((setFromModule_safe _ s).trans (disarmGrace_safe _)).trans (setTask_safe _ _ _)
    · exact ((issueSpotify_safe s).trans (disarmGrace_safe _)).trans (setTask_safe _ _ _)
  · unfold spotifyRun
    dsimp only
    split
    · exact (grace_safe s).trans (runEvents_safe ev _)
    · exact grace_safe s
  · exact PollSafe.refl s
  · exact (disarmGrace_safe s).trans (stopCommon_safe _)

theorem switchWhenOffline_safe (s : State) : PollSafe s (switchWhenOffline s) := by
  unfold switchWhenOffline
  dsimp only
  split
  · exact (issueSwitchSpotify_safe s).trans (setDiscLatch_safe _ _)
  · exact setDiscLatch_safe _ s

theorem netcfgFunction_safe (ev : Byte) (s : State) : PollSafe s (netcfgFunction ev s) := by
  unfold netcfgFunction
  split
  · exact setTask_safe _ _ s
  · exact ((setFromModule_safe _ s).trans (setDiscLatch_safe _ _)).trans (setTask_safe _ _ _)
  · unfold netcfgRun
    split
    · exact setTask_safe _ _ s
    · exact (switchWhenOffline_safe s).trans (runEvents_safe ev _)
  · unfold netcfgPause
    split
    · exact PollSafe.refl s
    · exact setTask_safe _ _ s
  · exact (setDiscLatch_safe _ s).trans (stopCommon_safe _)

theorem factoryFunction_safe (ev : Byte) (s : State) : PollSafe s (factoryFunction ev s) := by
  unfold factoryFunction
  split
  · exact setTask_safe _ _ s
  · exact ((setFromModule_safe _ s).trans (issueFactoryReset_safe _)).trans (setTask_safe _ _ _)
  · unfold factoryRun
    split
    · exact (setNextMode_safe _ s).trans (setTask_safe _ _ _)
    · split
      · exact toggle_safe s
      · exact PollSafe.refl s
  · exact PollSafe.refl s
  · unfold factoryStop
    have h1 : PollSafe s (s.withFsm { s.fsm with volume := s.cfg.defaultVolume }) :=
      PollSafe.fsmSameTimers s _ rfl rfl rfl rfl
    have h2 := h1.trans (issueUnmute_safe _)
    generalize issueUnmute (s.withFsm { s.fsm with volume := s.cfg.defaultVolume }) = t at h2
    have h3 : PollSafe t (t.withFsm { t.fsm with factoryInProgress := false }) :=
      PollSafe.fsmSameTimers t _ rfl rfl rfl rfl
    exact (h2.trans h3).trans (stopCommon_safe _)

theorem standbyFunction_safe (ev : Byte) (s : State) : PollSafe s (standbyFunction ev s) := by
  unfold standbyFunction
  split
  · exact setTask_safe _ _ s
  · exact ((setFromModule_safe _ s).trans (issueStandby_safe _)).trans (setTask_safe _ _ _)
  · unfold standbyRun
    split
    · exact setTask_safe _ _ s
    · exact PollSafe.refl s
  · exact PollSafe.refl s
  · exact (setNextMode_safe _ s).trans (stopCommon_safe _)

theorem modeFunction_safe (m : Mode) (ev : Byte) (s : State) : PollSafe s (modeFunction m ev s) := by
  cases m with
  | idle => exact PollSafe.refl s
  | standby => exact standbyFunction_safe ev s
  | booting => exact bootingFunction_safe s
  | bluetoothA2DP => exact btFunction_safe ev s
  | spotifyConnect => exact spotifyFunction_safe ev s
  | factoryReset => exact factoryFunction_safe ev s
  | networkConfig => exact netcfgFunction_safe ev s

theorem ackModuleVolume_safe (ev : Byte) (s : State) : PollSafe s (ackModuleVolume ev s) := by
  unfold ackModuleVolume
  split
  · exact PollSafe.withLink s _ rfl fun k =>
      ⟨k.nowLt, k.reqLt, k.echoLt, k.blockLt, k.debounceLt, k.bootLt, k.graceLt⟩
  · exact PollSafe.refl s

theorem factoryTrigger_safe (s : State) : PollSafe s (factoryTrigger s) := by
  unfold factoryTrigger
  split
  · exact PollSafe.refl s
  · split
    · have h : PollSafe s (s.withFsm { s.fsm with factoryInProgress := true }) :=
        PollSafe.fsmSameTimers s _ rfl rfl rfl rfl
      exact (h.trans (setFromModule_safe _ _)).trans (requestMode_safe _ _)
    · exact PollSafe.refl s

theorem diagCount_safe (s : State) : PollSafe s (diagCount s) := by
  have h : PollSafe s (s.withFsm { s.fsm with diagCounter := s.fsm.diagCounter + 1 }) :=
    PollSafe.fsmSameTimers s _ rfl rfl rfl rfl
  unfold diagCount
  dsimp only
  split
  · exact h.trans (regWritePoll_safe _ _ _).toPoll
  · exact h

theorem tailEvents_safe (ev : Byte) (s : State) : PollSafe s (tailEvents ev s) := by
  unfold tailEvents
  split
  · exact issueVolUp_safe s
  · split
    · exact issueVolDown_safe s
    · split
      · exact factoryTrigger_safe s
      · exact PollSafe.refl s

theorem tail_safe (m0 : Mode) (ev : Byte) (s : State) : PollSafe s (tail m0 ev s) := by
  unfold tail
  dsimp only
  split
  · exact (ackModuleVolume_safe ev s).trans (diagCount_safe _)
  · exact ((ackModuleVolume_safe ev s).trans (tailEvents_safe ev _)).trans (diagCount_safe _)

theorem dispatch_safe (s : State) : PollSafe s (dispatch s) :=
  ((modeFunction_safe _ _ s).trans (tail_safe _ _ _)).trans
    ((interruptPoint_safe _).toPoll.trans (postEvent_safe _ _).toPoll)

/-- What a POLL keeps, whatever is run at its interrupt points. -/
theorem pollOnce_safe (s : State) : PollSafe s (pollOnce s) :=
  ((linkStep_safe s).trans (interruptPoint_safe _).toPoll).trans (dispatch_safe _)

end Sys2Proof.Machine
end

