-- ==== Sys2Proof/Laws/ModeMoves.lean ====
section
/-! SUPPORT. Laws/ModeMoves.lean: a POLL where nothing is in store for its link and its interrupt points;
and the moves a POLL makes on the variables of a mode change, whatever is run at its interrupt points. -/

namespace Sys2Proof.Machine

/-! ### A quiet POLL -/

/-- With the link quiet, the link step does nothing. -/
theorem linkStep_quiet {s : State} (h : s.linkQuiet) : linkStep s = s := by
  have h1 : statusRequestCheck s = s := by
    unfold statusRequestCheck
    have := h.request
    rw [if_neg]
    simpa [running] using this
  unfold linkStep
  rw [h1, syncCall_nil h.points h.fifo]
  rfl

/-- With the link quiet, a POLL is its dispatcher. -/
theorem pollOnce_quiet {s : State} (h : s.linkQuiet) : pollOnce s = dispatch s := by
  rw [pollOnce, linkStep_quiet h, interruptPoint_quiet h.points]

/-- What DiagCount does where no stimulus is in store (42_mode_fsm.md R257). -/
theorem diagCount_quiet {t : State} (hq : t.quietPoints) : diagCount t = { t with
    mem := if t.cfg.configDiagCounter then t.mem.write t.cfg.regAuxDiag.val (t.fsm.diagCounter + 1)
      else t.mem
    fsm := { t.fsm with diagCounter := t.fsm.diagCounter + 1 } } := by
  unfold diagCount
  generalize hu : t.withFsm { t.fsm with diagCounter := t.fsm.diagCounter + 1 } = u
  have hc : u.cfg = t.cfg := by subst hu; rfl
  have hqu : u.quietPoints := by subst hu; exact hq
  dsimp only
  rw [regWritePoll_quiet hqu, hc]
  subst hu
  by_cases hd : t.cfg.configDiagCounter = true
  · rw [if_pos hd, if_pos hd]; rfl
  · rw [if_neg hd, if_neg hd]; rfl

/-- What the acknowledgment does (42_mode_fsm.md R256). -/
theorem ackModuleVolume_eq (ev : Byte) (t : State) :
    ackModuleVolume ev t = { t with link := { t.link with
      volInFlight := if ev = evModuleVolumeSet then false else t.link.volInFlight } } := by
  unfold ackModuleVolume
  split <;> rfl

/-- The end of a POLL whose event the tail does not act on (42_mode_fsm.md R253 to R257, R214). -/
theorem tail_inert {t : State} (m0 : Mode) (ev : Byte) (hq : t.quietPoints) (hi : tailInert ev) :
   clearEvent (tail m0 ev t) = tickEnd ev t := by
  have h1 : (if m0 = .standby then ackModuleVolume ev t else tailEvents ev (ackModuleVolume ev t)) =
      ackModuleVolume ev t := by
    split
    · rfl
    · rw [tailEvents, if_neg hi.1, if_neg hi.2.1, if_neg hi.2.2]
  have h2 : tail m0 ev t = diagCount (ackModuleVolume ev t) := by
    show diagCount (if m0 = .standby then ackModuleVolume ev t
      else tailEvents ev (ackModuleVolume ev t)) = _
    rw [h1]
  rw [h2, ackModuleVolume_eq, diagCount_quiet (by exact hq), clearEvent,
    interruptPoint_quiet (by exact hq)]
  rfl

/-! ### The moves of a mode change -/

/-- The moves a POLL makes on the variables of a mode change: a sub-state set (R215), Standby stopped by
Power (R249), a mode requested (R216) or saved and requested (R224, R225), a mode chosen with the Stop
(R229, R245), and the three exits (R217, R246, R250). `T` holds of every mode a POLL may choose. -/
inductive Move (T : Mode → Prop) : ModeCore → ModeCore → Prop
  | setTask (c : ModeCore) (v : TaskState) : v ≠ .stop → (v = .pause → c.mode = .networkConfig) →
      c.mode ≠ .idle → c.tasks.get c.mode ≠ .stop →
      Move T c { c with tasks := c.tasks.set c.mode v }
  | standbyOff (c : ModeCore) : c.mode = .standby → c.tasks.get c.mode ≠ .stop →
      Move T c { c with tasks := c.tasks.set c.mode .stop }
  | request (c : ModeCore) (t : Mode) : T t → Move T c (c.request t)
  | requestSave (c : ModeCore) (t : Mode) : T t →
      c.mode ∈ [.bluetoothA2DP, .spotifyConnect, .networkConfig] →
      Move T c ({ c with prev := c.mode }.request t)
  | stop (c : ModeCore) (t : Mode) : T t → c.tasks.get c.mode ≠ .stop → c.mode ≠ .idle →
      Move T c { c with next := t, tasks := c.tasks.set c.mode .stop }
  | leave (c : ModeCore) : c.tasks.get c.mode = .stop → c.mode ≠ .standby →
      c.mode ≠ .factoryReset → Move T c c.leave
  | leaveFactory (c : ModeCore) : c.tasks.get c.mode = .stop → c.mode = .factoryReset →
      Move T c { c with factory := false }.leave
  | leaveStandby (c : ModeCore) (t : Mode) : c.mode = .standby → c.tasks.get c.mode = .stop →
      (t = .networkConfig ∨ t = c.prev) → Move T c { c with next := t }.leave

/-- `T` holds of every mode a handler may choose (R221, R223, R230, R235, R245). -/
structure Targets (T : Mode → Prop) (c : Cfg) : Prop where
  announced : ∀ n t, moduleModeOf c n = some t → T t
  default : T c.defaultMode
  spotify : T .spotifyConnect
  bluetooth : T .bluetoothA2DP
  network : T .networkConfig
  standby : T .standby

/-- Several moves. -/
abbrev Moves (T : Mode → Prop) := Relation.ReflTransGen (Move T)

theorem Moves.one {T : Mode → Prop} {c d : ModeCore} (h : Move T c d) : Moves T c d :=
  Relation.ReflTransGen.single h

theorem Moves.request {T : Mode → Prop} {c : ModeCore} (t : Mode) (h : T t) :
    Moves T c (c.request t) := Moves.one (.request c t h)

/-- A sub-state of mode `m` set to Init or Run. -/
theorem Moves.enter {T : Mode → Prop} {c : ModeCore} {m : Mode} {v : TaskState} (hm : c.mode = m)
    (hv : v = .init ∨ v = .run) (hi : m ≠ .idle) (ht : c.tasks.get m ≠ .stop) :
    Moves T c { c with tasks := c.tasks.set m v } := by
  subst hm
  exact Moves.one (.setTask c v (by rcases hv with rfl | rfl <;> decide)
    (by rcases hv with rfl | rfl <;> (intro h; cases h)) hi ht)

theorem toggle_moves {T : Mode → Prop} {s : State} (hT : Targets T s.cfg) :
    Moves T s.core (toggle s).core := by
  unfold toggle
  split
  · exact .refl
  · split
    · split
      · exact .refl
      · next t ht =>
        unfold acceptToggle
        rw [requestMode_core, setFromModule_core]
        refine Moves.request t ?_
        cases hm : s.fsm.mode <;> rw [hm] at ht <;> simp [toggleTarget] at ht <;> subst ht
        · exact hT.spotify
        · exact hT.bluetooth
        · exact hT.spotify
        · split
          · exact hT.spotify
          · exact hT.bluetooth
    · exact .refl

theorem runEvents_moves {T : Mode → Prop} {s : State} (ev : Byte) (hT : Targets T s.cfg)
    (hm : s.fsm.mode ∈ [.bluetoothA2DP, .spotifyConnect, .networkConfig]) :
    Moves T s.core (runEvents ev s).core := by
  unfold runEvents
  split
  · exact toggle_moves hT
  · split
    · unfold moduleMode
      split
      · split
        · exact .refl
        · next t ht =>
          split
          · exact .refl
          · unfold acceptModuleMode
            rw [requestMode_core, setFromModule_core]
            split
            · exact Moves.one (.requestSave _ t (hT.announced _ _ ht) hm)
            · exact Moves.request t (hT.announced _ _ ht)
      · exact .refl
    · split
      · unfold power
        rw [requestMode_core, setFromModule_core]
        exact Moves.one (.requestSave _ _ hT.standby hm)
      · exact .refl

theorem grace_core (s : State) :
    (grace s).core = s.core ∨ (grace s).core = s.core.request .networkConfig := by
  unfold grace
  split
  · exact .inl rfl
  · split
    · split
      · right; rw [requestMode_core, setFromModule_core, disarmGrace_core]
      · exact .inl rfl
    · exact .inl rfl

theorem grace_cfg (s : State) : (grace s).cfg = s.cfg := (grace_safe s).cfg

/-- A mode function moves the variables of a mode change by those moves alone (42_mode_fsm.md R213). -/
theorem modeFunction_moves {T : Mode → Prop} {s : State} (m : Mode) (ev : Byte) (hT : Targets T s.cfg)
    (hmode : s.fsm.mode = m) : Moves T s.core (modeFunction m ev s).core := by
  have cm : s.core.mode = m := hmode
  cases m with
  | idle => exact .refl
  | standby =>
    simp only [modeFunction, standbyFunction]
    have hm : s.core.mode = .standby := hmode
    have ht : s.core.tasks.get s.core.mode = s.fsm.tasks.standby := by rw [hm]; rfl
    split
    · next h =>
      rw [setTask_core]
      exact Moves.enter hm (by decide) (by decide) (by rw [← hm, ht, h]; decide)
    · next h =>
      unfold standbyInit
      rw [setTask_core, issueStandby_core, setFromModule_core]
      exact Moves.enter hm (by decide) (by decide) (by rw [← hm, ht, h]; decide)
    · next h =>
      unfold standbyRun
      split
      · rw [setTask_core, ← hm]
        exact Moves.one (.standbyOff _ hm (by rw [ht, h]; decide))
      · exact .refl
    · exact .refl
    · next h =>
      unfold standbyStop
      rw [stopCommon_core, setNextMode_core]
      refine Moves.one (.leaveStandby _ _ hm (by rw [ht, h]) ?_)
      split
      · exact .inl rfl
      · exact .inr rfl
  | booting =>
    simp only [modeFunction, bootingFunction]
    have hm : s.core.mode = .booting := hmode
    have ht : s.core.tasks.get s.core.mode = s.fsm.tasks.booting := by rw [hm]; rfl
    split
    · next h =>
      unfold bootIdle
      split
      · rw [setTask_core]
        exact Moves.enter hm (by decide) (by decide) (by rw [← hm, ht, h]; decide)
      · exact .refl
    · next h =>
      unfold bootInit
      show Moves T s.core { s.core with tasks := s.core.tasks.set .booting .run }
      exact Moves.enter hm (by decide) (by decide) (by rw [← hm, ht, h]; decide)
    · next h =>
      unfold bootRun
      split
      · rw [setTask_core, setNextMode_core, ← hm]
        refine Moves.one (.stop _ _ ?_ (by rw [ht, h]; decide) (by rw [hm]; decide))
        unfold bootRuleOf
        cases bootTableOf s.cfg s.link.cur _
        · exact hT.spotify
        · exact hT.standby
        · exact hT.network
      · exact .refl
    · exact .refl
    · next h =>
      unfold bootStop
      rw [stopCommon_core, show ∀ t : State, (t.withFsm { t.fsm with
        tBoot := t.fsm.tBoot.disarm }).core = t.core from fun _ => rfl, setBootReady_core]
      exact Moves.one (.leave _ (by rw [ht, h]) (by rw [hm]; decide) (by rw [hm]; decide))
  | bluetoothA2DP =>
    simp only [modeFunction, btFunction]
    have hm : s.core.mode = .bluetoothA2DP := hmode
    have ht : s.core.tasks.get s.core.mode = s.fsm.tasks.bluetoothA2DP := by rw [hm]; rfl
    split
    · next h =>
      rw [setTask_core]
      exact Moves.enter hm (by decide) (by decide) (by rw [← hm, ht, h]; decide)
    · next h =>
      unfold btInit
      rw [setTask_core]
      have : (if s.fsm.fromModule = true then setFromModule false s else issueBt s).core = s.core := by
        split
        · rfl
        · exact issueBt_core s
      rw [this]
      exact Moves.enter hm (by decide) (by decide) (by rw [← hm, ht, h]; decide)
    · exact runEvents_moves ev hT (by rw [hmode]; simp)
    · exact .refl
    · next h =>
      rw [stopCommon_core]
      exact Moves.one (.leave _ (by rw [ht, h]) (by rw [hm]; decide) (by rw [hm]; decide))
  | spotifyConnect =>
    simp only [modeFunction, spotifyFunction]
    have hm : s.core.mode = .spotifyConnect := hmode
    have ht : s.core.tasks.get s.core.mode = s.fsm.tasks.spotifyConnect := by rw [hm]; rfl
    split
    · next h =>
      rw [setTask_core]
      exact Moves.enter hm (by decide) (by decide) (by rw [← hm, ht, h]; decide)
    · next h =>
      unfold spotifyInit
      rw [setTask_core, disarmGrace_core]
      have : (if s.fsm.fromModule = true then setFromModule false s else issueSpotify s).core = s.core := by
        split
        · rfl
        · exact issueSpotify_core s
      rw [this]
      exact Moves.enter hm (by decide) (by decide) (by rw [← hm, ht, h]; decide)
    · next h =>
      unfold spotifyRun
      dsimp only
      have g : Moves T s.core (grace s).core := by
        rcases grace_core s with e | e <;> rw [e]
        exact Moves.request _ hT.network
      split
      · next hr =>
        refine g.trans (runEvents_moves ev (by rw [grace_cfg]; exact hT) ?_)
        have : (grace s).core.mode = s.core.mode := by
          rcases grace_core s with e | e <;> rw [e]
          unfold ModeCore.request; split <;> rfl
        have : (grace s).fsm.mode = s.fsm.mode := this
        rw [this, hmode]; simp
      · exact g
    · exact .refl
    · next h =>
      rw [stopCommon_core, disarmGrace_core]
      exact Moves.one (.leave _ (by rw [ht, h]) (by rw [hm]; decide) (by rw [hm]; decide))
  | networkConfig =>
    simp only [modeFunction, netcfgFunction]
    have hm : s.core.mode = .networkConfig := hmode
    have ht : s.core.tasks.get s.core.mode = s.fsm.tasks.networkConfig := by rw [hm]; rfl
    split
    · next h =>
      rw [setTask_core]
      exact Moves.enter hm (by decide) (by decide) (by rw [← hm, ht, h]; decide)
    · next h =>
      unfold netcfgInit
      rw [setTask_core, setDiscLatch_core, setFromModule_core]
      exact Moves.enter hm (by decide) (by decide) (by rw [← hm, ht, h]; decide)
    · next h =>
      unfold netcfgRun
      split
      · rw [setTask_core, ← hm]
        exact Moves.one (.setTask _ _ (by decide) (fun _ => hm) (by rw [hm]; decide)
          (by rw [ht, h]; decide))
      · have := runEvents_moves (T := T) (s := switchWhenOffline s) ev
          (by rw [(switchWhenOffline_safe s).cfg]; exact hT)
          (by
            have : (switchWhenOffline s).core.mode = s.core.mode := by rw [switchWhenOffline_core]
            have : (switchWhenOffline s).fsm.mode = s.fsm.mode := this
            rw [this, hmode]; simp)
        rw [switchWhenOffline_core] at this
        exact this
    · next h =>
      unfold netcfgPause
      split
      · exact .refl
      · rw [setTask_core]
        exact Moves.enter hm (by decide) (by decide) (by rw [← hm, ht, h]; decide)
    · next h =>
      rw [stopCommon_core, setDiscLatch_core]
      exact Moves.one (.leave _ (by rw [ht, h]) (by rw [hm]; decide) (by rw [hm]; decide))
  | factoryReset =>
    simp only [modeFunction, factoryFunction]
    have hm : s.core.mode = .factoryReset := hmode
    have ht : s.core.tasks.get s.core.mode = s.fsm.tasks.factoryReset := by rw [hm]; rfl
    split
    · next h =>
      rw [setTask_core]
      exact Moves.enter hm (by decide) (by decide) (by rw [← hm, ht, h]; decide)
    · next h =>
      unfold factoryInit
      rw [setTask_core, issueFactoryReset_core, setFromModule_core]
      exact Moves.enter hm (by decide) (by decide) (by rw [← hm, ht, h]; decide)
    · next h =>
      unfold factoryRun
      split
      · rw [setTask_core, setNextMode_core, ← hm]
        exact Moves.one (.stop _ _ hT.default (by rw [ht, h]; decide) (by rw [hm]; decide))
      · split
        · exact toggle_moves hT
        · exact .refl
    · exact .refl
    · next h =>
      unfold factoryStop
      rw [stopCommon_core, show ∀ t : State, (t.withFsm { t.fsm with
        factoryInProgress := false }).core = { t.core with factory := false } from fun _ => rfl,
        issueUnmute_core]
      exact Moves.one (.leaveFactory _ (by rw [ht, h]) hm)

/-- The tail leaves those variables alone, or requests FactoryReset (42_mode_fsm.md R253, R255). -/
theorem tail_core (m0 : Mode) (ev : Byte) (s : State) : (tail m0 ev s).core = s.core ∨
    (m0 ≠ .standby ∧ s.core.factory = false ∧ taskActive (s.core.tasks.get s.core.mode) = true ∧
      (tail m0 ev s).core = ({ s.core with factory := true }).request .factoryReset) := by
  unfold tail
  dsimp only
  rw [diagCount_core]
  split
  · left; exact ackModuleVolume_core _ _
  · next hm0 =>
    generalize hu : ackModuleVolume ev s = u
    have e : u.core = s.core := by subst hu; exact ackModuleVolume_core _ _
    rw [← e]
    unfold tailEvents
    split
    · left; exact issueVolUp_core _
    · split
      · left; exact issueVolDown_core _
      · split
        · unfold factoryTrigger
          split
          · exact .inl rfl
          · next hf =>
            split
            · next ha =>
              right
              refine ⟨hm0, by simpa [State.core] using hf, ha, ?_⟩
              rw [requestMode_core, setFromModule_core]; rfl
            · exact .inl rfl
        · exact .inl rfl

end Sys2Proof.Machine
end

