-- ==== Sys2Proof/Laws/PerInstr.lean ====
section
/-! SUPPORT. Laws/PerInstr.lean: a statement for every instruction, one lemma per constructor: the decoder
accepts every word the encoder writes for a well-formed instruction (30_encoding.md). -/

namespace Sys2Proof.Laws.Words

/-- The decoder accepts every word the encoder writes for it, in every configuration. -/
def Statement (i : Instr) : Prop :=
  ∀ c : Cfg, i.wf = true → ∀ x ∈ encode c i, ∃ j, decode c x = .ok j

/-- Every transaction of the list is accepted. -/
def Accepted (c : Cfg) (xs : List Wire) : Prop := ∀ x ∈ xs, ∃ j, decode c x = .ok j

theorem accepted_nil (c : Cfg) : Accepted c [] := by
  intro x h
  cases h

theorem accepted_cons {c : Cfg} {x : Wire} {xs : List Wire} (h : ∃ j, decode c x = .ok j)
    (k : Accepted c xs) : Accepted c (x :: xs) := by
  intro y hy
  rcases List.mem_cons.mp hy with rfl | hy
  · exact h
  · exact k y hy

theorem accepted_append {c : Cfg} {xs ys : List Wire} (h : Accepted c xs) (k : Accepted c ys) :
    Accepted c (xs ++ ys) := by
  intro y hy
  rcases List.mem_append.mp hy with hy | hy
  · exact h y hy
  · exact k y hy

theorem accepted_stims {c : Cfg} {xs : List Wire} (h : ∀ x ∈ xs, ∃ k o, x = stimWord k o) :
    Accepted c xs := by
  intro x hx
  obtain ⟨k, o, rfl⟩ := h x hx
  exact ⟨_, rfl⟩

theorem stim_ok (c : Cfg) (k o : Byte) : Accepted c [stimWord k o] :=
  accepted_cons ⟨_, rfl⟩ (accepted_nil c)

theorem record_ok (c : Cfg) (i lo hi : Byte) : Accepted c [recordWord i lo hi] :=
  accepted_cons ⟨_, rfl⟩ (accepted_nil c)

theorem key_ok (c : Cfg) (k : Key) (lo : Byte) : Accepted c [keyWord c k lo] := record_ok c _ _ _

theorem cmd_ok (c : Cfg) (p : CmdPair) : Accepted c [cmdWord p] := by
  refine accepted_cons ⟨cmdRow c p, ?_⟩ (accepted_nil c)
  obtain ⟨h1, h2, h3, h4, h5, h6⟩ := frame_fields magic0 magic1 magic2 cmdLen p.cmd p.data
  unfold cmdWord decode decodeCmd
  dsimp only
  rw [h1, h2, h3, h4, h5, h6, if_pos ⟨rfl, rfl, rfl⟩, if_pos rfl]

theorem rx_ok (c : Cfg) (bs : List Byte) : Accepted c (rxWords bs) :=
  accepted_stims fun x hx => by
    obtain ⟨b, _, rfl⟩ := List.mem_map.mp hx
    exact ⟨_, _, rfl⟩

theorem status_ok (c : Cfg) (payload : List Byte) (h : payload.length ≤ statusMaxLen) :
    Accepted c [.status (statusBytes payload)] := by
  refine accepted_cons ⟨.statusFrame payload, ?_⟩ (accepted_nil c)
  have hl : (BitVec.ofNat 8 payload.length).toNat = payload.length := by
    rw [BitVec.toNat_ofNat]
    exact Nat.mod_eq_of_lt (Nat.lt_of_le_of_lt h (by decide))
  unfold decode statusBytes decodeStatus
  dsimp only
  rw [hl, if_pos ⟨rfl, rfl, rfl⟩, if_pos ⟨h, rfl⟩]

theorem tick (n : Byte) : Statement (.tick n) := fun c _ => stim_ok c _ _
theorem tick100 (n : Byte) : Statement (.tick100 n) := fun c _ => stim_ok c _ _
theorem rxb (b : Byte) : Statement (.rxb b) := fun c _ => stim_ok c _ _
theorem post (e : Byte) : Statement (.post e) := fun c _ => stim_ok c _ _
theorem scan (b : Bool) : Statement (.scan b) := fun c _ => stim_ok c _ _
theorem txdrop (n : Byte) : Statement (.txdrop n) := fun c _ => stim_ok c _ _
theorem baddrw : Statement .baddrw := fun c _ => stim_ok c _ _
theorem baddrr : Statement .baddrr := fun c _ => stim_ok c _ _
theorem bwr (b : Byte) : Statement (.bwr b) := fun c _ => stim_ok c _ _
theorem brd : Statement .brd := fun c _ => stim_ok c _ _
theorem bstop (p : Bool) : Statement (.bstop p) := fun c _ => stim_ok c _ _
theorem baf : Statement .baf := fun c _ => stim_ok c _ _
theorem berr : Statement .berr := fun c _ => stim_ok c _ _
theorem poll : Statement .poll := fun c _ => stim_ok c _ _
theorem reset : Statement .reset := fun c _ => stim_ok c _ _
theorem illegal (w : StimWord) : Statement (.illegal w) := fun _ _ _ hx => by
  rw [List.mem_singleton.mp hx]
  exact ⟨_, rfl⟩
theorem postNone : Statement .postNone := fun c _ => stim_ok c _ _
theorem postVolUp : Statement .postVolUp := fun c _ => stim_ok c _ _
theorem postVolDown : Statement .postVolDown := fun c _ => stim_ok c _ _
theorem postModeToggle : Statement .postModeToggle := fun c _ => stim_ok c _ _
theorem postSetModeFromModule : Statement .postSetModeFromModule := fun c _ => stim_ok c _ _
theorem postPower : Statement .postPower := fun c _ => stim_ok c _ _
theorem postFactoryReset : Statement .postFactoryReset := fun c _ => stim_ok c _ _
theorem postModuleVolumeSet : Statement .postModuleVolumeSet := fun c _ => stim_ok c _ _
theorem postOther (e : Byte) : Statement (.postOther e) := fun c _ => stim_ok c _ _
theorem rxseq (bs : List Byte) : Statement (.rxseq bs) := fun c _ => rx_ok c bs
theorem rxstatus (d0 d1 d2 d3 : Byte) : Statement (.rxstatus d0 d1 d2 d3) := fun c _ => rx_ok c _
theorem bwrite (i lo hi : Byte) : Statement (.bwrite i lo hi) := fun c _ =>
  accepted_cons ⟨_, rfl⟩ (accepted_cons ⟨_, rfl⟩ (accepted_cons ⟨_, rfl⟩ (stim_ok c _ _)))
theorem bsetidx (i : Byte) : Statement (.bsetidx i) := fun c _ =>
  accepted_cons ⟨_, rfl⟩ (stim_ok c _ _)
theorem bread (n : Nat) : Statement (.bread n) := fun c _ =>
  accepted_append (accepted_append (stim_ok c _ _) (accepted_stims fun _ hx =>
    ⟨_, _, (List.mem_replicate.mp hx).2⟩)) (accepted_cons ⟨_, rfl⟩ (stim_ok c _ _))
theorem wait (t : Fin 25600) : Statement (.wait t) := by
  intro c _
  refine accepted_append ?_ ?_
  · split
    · exact stim_ok c _ _
    · exact accepted_nil c
  · split
    · exact stim_ok c _ _
    · exact accepted_nil c
theorem nop : Statement .nop := fun c _ => accepted_nil c
theorem cmdFrame (c d : Byte) : Statement (.cmdFrame c d) := fun c _ => cmd_ok c _
theorem statusFrame (payload : List Byte) : Statement (.statusFrame payload) := fun c h => status_ok c payload (of_decide_eq_true h)
theorem writeRecord (i lo hi : Byte) : Statement (.writeRecord i lo hi) := fun c _ => record_ok c _ _ _
theorem recReject (i lo hi : Byte) : Statement (.recReject i lo hi) := fun c _ => record_ok c _ _ _
theorem recRawStore (i lo hi : Byte) : Statement (.recRawStore i lo hi) := fun c _ => record_ok c _ _ _
theorem recOob (i lo hi : Byte) : Statement (.recOob i lo hi) := fun c _ => record_ok c _ _ _
theorem recKeyCmd (lo hi : Byte) : Statement (.recKeyCmd lo hi) := fun c _ => record_ok c _ _ _
theorem recAuxCtrl (lo hi : Byte) : Statement (.recAuxCtrl lo hi) := fun c _ => record_ok c _ _ _
theorem recVolumeSet (lo hi : Byte) : Statement (.recVolumeSet lo hi) := fun c _ => record_ok c _ _ _
theorem keyMute (lo : Byte) : Statement (.keyMute lo) := fun c _ => key_ok c _ _
theorem keyUnmute (lo : Byte) : Statement (.keyUnmute lo) := fun c _ => key_ok c _ _
theorem keySpotifyMode (lo : Byte) : Statement (.keySpotifyMode lo) := fun c _ => key_ok c _ _
theorem keyBtMode (lo : Byte) : Statement (.keyBtMode lo) := fun c _ => key_ok c _ _
theorem keyVolUp (lo : Byte) : Statement (.keyVolUp lo) := fun c _ => key_ok c _ _
theorem keyVolDown (lo : Byte) : Statement (.keyVolDown lo) := fun c _ => key_ok c _ _
theorem keyPlayPause (lo : Byte) : Statement (.keyPlayPause lo) := fun c _ => key_ok c _ _
theorem keyNext (lo : Byte) : Statement (.keyNext lo) := fun c _ => key_ok c _ _
theorem keyPrev (lo : Byte) : Statement (.keyPrev lo) := fun c _ => key_ok c _ _
theorem keyResetNetwork (lo : Byte) : Statement (.keyResetNetwork lo) := fun c _ => key_ok c _ _
theorem keyFactoryReset (lo : Byte) : Statement (.keyFactoryReset lo) := fun c _ => key_ok c _ _
theorem mcStatusReq : Statement .mcStatusReq := fun c _ => cmd_ok c _
theorem mcSetVolume (v : Byte) : Statement (.mcSetVolume v) := fun c _ => cmd_ok c _
theorem fcUnmute : Statement .fcUnmute := fun c _ => cmd_ok c _
theorem fcSpotify : Statement .fcSpotify := fun c _ => cmd_ok c _
theorem fcSwitchSpotify : Statement .fcSwitchSpotify := fun c _ => cmd_ok c _
theorem fcBt : Statement .fcBt := fun c _ => cmd_ok c _
theorem fcVolUp : Statement .fcVolUp := fun c _ => cmd_ok c _
theorem fcVolDown : Statement .fcVolDown := fun c _ => cmd_ok c _
theorem fcFactoryReset : Statement .fcFactoryReset := fun c _ => cmd_ok c _
theorem fcStandby : Statement .fcStandby := fun c _ => cmd_ok c _

end Sys2Proof.Laws.Words
end

