-- ==== Sys2Proof/Laws/Step.lean ====
section
/-! SUPPORT. Laws/Step.lean: what a step can do, said once: it runs the command frame set to be sent by
itself, else it takes the oldest input, else it waits. -/

namespace Sys2Proof.Machine

@[simp] theorem takePending_pending (r : List Wire) (s : State) : (takePending r s).input.pending = r := rfl
@[simp] theorem takePending_issue (r : List Wire) (s : State) :
    (takePending r s).input.issue = s.input.issue := rfl
@[simp] theorem takePending_ipSched (r : List Wire) (s : State) :
    (takePending r s).input.ipSched = s.input.ipSched := rfl
@[simp] theorem takePending_cfg (r : List Wire) (s : State) : (takePending r s).cfg = s.cfg := rfl
@[simp] theorem takeIssue_issue (s : State) : (takeIssue s).input.issue = none := rfl
@[simp] theorem takeIssue_pending (s : State) : (takeIssue s).input.pending = s.input.pending := rfl
@[simp] theorem takeIssue_cfg (s : State) : (takeIssue s).cfg = s.cfg := rfl

@[simp] theorem presentInput_pending (x : Wire) (s : State) : (presentInput x s).input.pending = [x] := rfl
@[simp] theorem presentInput_issue (x : Wire) (s : State) : (presentInput x s).input.issue = none := rfl
@[simp] theorem presentInput_ipSched (x : Wire) (s : State) :
    (presentInput x s).input.ipSched = s.input.ipSched := rfl
@[simp] theorem presentInput_cfg (x : Wire) (s : State) : (presentInput x s).cfg = s.cfg := rfl
@[simp] theorem takePending_presentInput (r : List Wire) (x : Wire) (s : State) :
    takePending r (presentInput x s) = takePending r (takeIssue s) := rfl

theorem step_of_issue {s : State} {w : FrameWord} (h : s.input.issue = some w) :
    step s = stepIssue w (takeIssue s) := by
  simp only [step, h]

theorem step_of_pending {s : State} {x : Wire} {rest : List Wire} (h : s.input.issue = none)
    (k : s.input.pending = x :: rest) : step s = stepInput x (takePending rest s) := by
  simp only [step, h, k]

theorem step_of_none {s : State} (h : s.input.issue = none) (k : s.input.pending = []) :
    step s = .next s := by
  simp only [step, h, k]

/-- An input that decodes is its instruction. -/
theorem stepInput_of_ok {x : Wire} {s : State} {i : Instr} (h : decodeInput s.cfg x = .ok i) :
    stepInput x s = exec i s := by
  simp only [stepInput, h]

/-- An input that does not decode still answers a next state. -/
theorem stepInput_of_error {x : Wire} {s : State} {e : DecodeError} (h : decodeInput s.cfg x = .error e) :
    stepInput x s = .next (strayInput x s) := by
  simp only [stepInput, h]

/-- What a step does with a presented input. -/
theorem step_presentInput (x : Wire) (s : State) :
    step (presentInput x s) = stepInput x (takePending [] (takeIssue s)) :=
  step_of_pending rfl rfl

/-- A presented command frame is not taken: it only sets the mark. -/
theorem step_presentInput_cmd (w : FrameWord) (s : State) :
    step (presentInput (.cmd w) s) = .next (markRefused (takePending [] (takeIssue s))) := rfl

/-- A command frame that decodes is its row. -/
theorem stepIssue_of_ok {w : FrameWord} {s : State} {i : Instr} (h : decode s.cfg (.cmd w) = .ok i) :
    stepIssue w s = exec i s := by
  simp only [stepIssue, h]

/-- Six bytes that are no command frame only set the mark. -/
theorem stepIssue_of_error {w : FrameWord} {s : State} {e : DecodeError}
    (h : decode s.cfg (.cmd w) = .error e) : stepIssue w s = .next (markRefused s) := by
  simp only [stepIssue, h, strayInput]

/-- Every input but a command frame is read by the decoder. -/
theorem decodeInput_eq {c : Cfg} {x : Wire} (h : ∀ w, x ≠ .cmd w) : decodeInput c x = decode c x := by
  cases x with
  | cmd w => exact absurd rfl (h w)
  | stim _ => rfl
  | record _ => rfl
  | status _ => rfl
  | unknown _ _ => rfl

theorem receiveBytes_safe (bs : List Byte) (s : State) : IpSafe s (receiveBytes bs s) := by
  induction bs generalizing s with
  | nil => exact IpSafe.refl s
  | cons b bs ih => exact (receiveByte_safe b s).trans (ih _)

/-- An input in no format either arrives as bytes or sets the mark; its store of inputs is untouched. -/
theorem strayInput_cases (x : Wire) (s : State) :
    (∃ bs, x = .status bs ∧ strayInput x s = receiveBytes bs s) ∨
    strayInput x s = s.withRefused true := by
  cases x with
  | status bs => exact .inl ⟨bs, rfl, rfl⟩
  | stim _ => exact .inr rfl
  | record _ => exact .inr rfl
  | cmd _ => exact .inr rfl
  | unknown _ _ => exact .inr rfl

end Sys2Proof.Machine
end

