-- ==== Sys2Proof/Tests/Slice0.lean ====
section
/-! SUPPORT. Tests/Slice0.lean: the ill-formed terms each check of `Instr.wf` refuses; every row's words,
written out from the encoding tables, and what they decode to; single steps on the vectors of
95_test_vectors.md (their identifiers in the comments); and, for every obligation with hypotheses, a state
and operands that meet them. -/

namespace Sys2Proof.Tests

open Sys2Proof.Machine

/-! ### Well-formedness -/

theorem test_wf_refuses_assigned_illegal : (Instr.illegal 0x3000).wf = false := by decide
theorem test_wf_admits_unassigned_illegal : (Instr.illegal 0x3001).wf = true := by decide
theorem test_wf_refuses_named_event_as_other : (Instr.postOther 0x07).wf = false := by decide
theorem test_wf_refuses_five_payload_bytes : (Instr.statusFrame [1, 2, 3, 4, 5]).wf = false := by decide
theorem test_wf_admits_four_payload_bytes : (Instr.statusFrame [1, 2, 3, 4]).wf = true := by decide
theorem test_wf_refuses_reject_at_fifteen : (Instr.recReject 15 0 0).wf = false := by decide
theorem test_wf_refuses_raw_store_at_twelve : (Instr.recRawStore 12 0 0).wf = false := by decide
theorem test_wf_refuses_oob_at_eleven : (Instr.recOob 11 0 0).wf = false := by decide
theorem test_wf_refuses_oob_at_sixteen : (Instr.recOob 16 0 0).wf = false := by decide
theorem test_wf_refuses_volume_33 : (Instr.mcSetVolume 33).wf = false := by decide

/-! ### Decoding: the words of 30_encoding.md R90, bits 15:8 the KIND, 7:0 the OPERAND -/

theorem test_decode_tick : decode cfg0 (.stim 0b0000000100010010) = .ok (.tick 0x12) := by decide
theorem test_decode_tick100 : decode cfg0 (.stim 0b0000001000011110) = .ok (.tick100 30) := by decide
theorem test_decode_rxb : decode cfg0 (.stim 0b0001000001000110) = .ok (.rxb 0x46) := by decide
theorem test_decode_post : decodeStim 0b0001000101000010 = .post 0x42 := by decide
theorem test_decode_scan : decode cfg0 (.stim 0b0001001000000001) = .ok (.scan true) := by decide
theorem test_decode_txdrop : decode cfg0 (.stim 0b0001001100001000) = .ok (.txdrop 8) := by decide
theorem test_decode_baddrw : decode cfg0 (.stim 0b0010000000000000) = .ok .baddrw := by decide
theorem test_decode_baddrr : decode cfg0 (.stim 0b0010000100000000) = .ok .baddrr := by decide
theorem test_decode_bwr : decode cfg0 (.stim 0b0010001010000000) = .ok (.bwr 0x80) := by decide
theorem test_decode_brd : decode cfg0 (.stim 0b0010001100000000) = .ok .brd := by decide
theorem test_decode_bstop : decode cfg0 (.stim 0b0010010000000001) = .ok (.bstop true) := by decide
theorem test_decode_baf : decode cfg0 (.stim 0b0010010100000000) = .ok .baf := by decide
theorem test_decode_berr : decode cfg0 (.stim 0b0010011000000000) = .ok .berr := by decide
theorem test_decode_poll : decode cfg0 (.stim 0b0011000000000000) = .ok .poll := by decide
theorem test_decode_reset : decode cfg0 (.stim 0b0011111100000000) = .ok .reset := by decide
/-- X3, X4, X5, X6, X8. -/
theorem test_decode_illegal : decode cfg0 (.stim 0x3001) = .ok (.illegal 0x3001) ∧
    decode cfg0 (.stim 0x1202) = .ok (.illegal 0x1202) ∧
    decode cfg0 (.stim 0x2402) = .ok (.illegal 0x2402) ∧
    decode cfg0 (.stim 0x4000) = .ok (.illegal 0x4000) ∧
    decode cfg0 (.stim 0x0000) = .ok (.illegal 0x0000) := by decide
theorem test_decode_post_none : decode cfg0 (.stim 0x1100) = .ok .postNone := by decide
theorem test_decode_post_vol_up : decode cfg0 (.stim 0x1101) = .ok .postVolUp := by decide
theorem test_decode_post_vol_down : decode cfg0 (.stim 0x1102) = .ok .postVolDown := by decide
theorem test_decode_post_mode_toggle : decode cfg0 (.stim 0x1103) = .ok .postModeToggle := by decide
theorem test_decode_post_set_mode : decode cfg0 (.stim 0x1104) = .ok .postSetModeFromModule := by decide
theorem test_decode_post_power : decode cfg0 (.stim 0x1105) = .ok .postPower := by decide
theorem test_decode_post_factory_reset : decode cfg0 (.stim 0x1106) = .ok .postFactoryReset := by decide
theorem test_decode_post_volume_set : decode cfg0 (.stim 0x1107) = .ok .postModuleVolumeSet := by decide
theorem test_decode_post_other : decode cfg0 (.stim 0x1108) = .ok (.postOther 0x08) := by decide

/-! ### Script lines: the expansions as 95_test_vectors.md section 3 writes them -/

/-- P3 line 2. -/
theorem test_words_rxseq : encode cfg0 (.rxseq [0xFF, 0x46, 0x53, 0x02, 0x21, 0x00]) =
    [.stim 0x10FF, .stim 0x1046, .stim 0x1053, .stim 0x1002, .stim 0x1021, .stim 0x1000] := by decide
/-- P1 line 2. -/
theorem test_words_rxstatus : encode cfg0 (.rxstatus 0x11 0x02 0x0F 0x00) =
    [.stim 0x10FF, .stim 0x1046, .stim 0x1053, .stim 0x1004, .stim 0x1011, .stim 0x1002, .stim 0x100F,
      .stim 0x1000] := by decide
/-- P2 line 1. -/
theorem test_words_bwrite : encode cfg0 (.bwrite 0x02 0x80 0x01) =
    [.stim 0x2000, .stim 0x2202, .stim 0x2280, .stim 0x2201] := by decide
/-- P2 line 5. -/
theorem test_words_bsetidx : encode cfg0 (.bsetidx 0x00) = [.stim 0x2000, .stim 0x2200] := by decide
/-- P2 line 6. -/
theorem test_words_bread : encode cfg0 (.bread 4) =
    [.stim 0x2100, .stim 0x2300, .stim 0x2300, .stim 0x2300, .stim 0x2300, .stim 0x2500,
      .stim 0x2400] := by decide
/-- TM3. -/
theorem test_words_wait : encode cfg0 (.wait 3000) = [.stim 0x021E] ∧
    encode cfg0 (.wait 25599) = [.stim 0x02FF, .stim 0x0163] ∧
    encode cfg0 (.wait 50) = [.stim 0x0132] ∧ encode cfg0 (.wait 0) = [] := by decide
theorem test_words_nop : encode cfg0 .nop = [] := by decide

/-! ### Records (R87: INDEX 23:16, LO 15:8, HI 7:0) and frames (R80, R82) -/

theorem test_words_write_record : encode cfg0 (.writeRecord 0x02 0x80 0x01) = [.record 0x028001] := by
  decide
theorem test_decode_rec_reject : decode cfg0 (.record 0x100500) = .ok (.recReject 0x10 0x05 0) := by
  decide
theorem test_decode_rec_raw_store : decode cfg0 (.record 0x0B0102) = .ok (.recRawStore 11 1 2) := by
  decide
theorem test_decode_rec_oob : decode cfg0 (.record 0x0C0500) = .ok (.recOob 12 5 0) ∧
    decode cfg0 (.record 0x0F0500) = .ok (.recOob 15 5 0) := by decide
theorem test_decode_rec_key_cmd : decode cfg0 (.record 0x02800C) = .ok (.recKeyCmd 0x80 0x0C) := by
  decide
theorem test_decode_rec_aux_ctrl : decode cfg0 (.record 0x080100) = .ok (.recAuxCtrl 1 0) := by decide
theorem test_decode_rec_volume_set : decode cfg0 (.record 0x0A2000) = .ok (.recVolumeSet 0x20 0) := by
  decide
theorem test_decode_key_mute : decode cfg0 (.record 0x028001) = .ok (.keyMute 0x80) := by decide
theorem test_decode_key_unmute : decode cfg0 (.record 0x028002) = .ok (.keyUnmute 0x80) := by decide
theorem test_decode_key_spotify : decode cfg0 (.record 0x028003) = .ok (.keySpotifyMode 0x80) := by
  decide
theorem test_decode_key_bt : decode cfg0 (.record 0x028004) = .ok (.keyBtMode 0x80) := by decide
theorem test_decode_key_vol_up : decode cfg0 (.record 0x028005) = .ok (.keyVolUp 0x80) := by decide
theorem test_decode_key_vol_down : decode cfg0 (.record 0x028006) = .ok (.keyVolDown 0x80) := by decide
theorem test_decode_key_play_pause : decode cfg0 (.record 0x028007) = .ok (.keyPlayPause 0x80) := by
  decide
theorem test_decode_key_next : decode cfg0 (.record 0x028008) = .ok (.keyNext 0x80) := by decide
theorem test_decode_key_prev : decode cfg0 (.record 0x028009) = .ok (.keyPrev 0x80) := by decide
theorem test_decode_key_reset_network : decode cfg0 (.record 0x02800A) = .ok (.keyResetNetwork 0x80) := by
  decide
theorem test_decode_key_factory_reset : decode cfg0 (.record 0x02800B) = .ok (.keyFactoryReset 0x80) := by
  decide
theorem test_decode_cmd_frame : decode cfg0 (.cmd 0xFF4653020380) = .ok (.cmdFrame 0x03 0x80) := by
  decide
theorem test_decode_status_frame : decode cfg0 (.status [0xFF, 0x46, 0x53, 0x02, 0x21, 0x31]) =
    .ok (.statusFrame [0x21, 0x31]) := by decide
theorem test_decode_mc_status_req : decode cfg0 (.cmd 0xFF4653020100) = .ok .mcStatusReq := by decide
theorem test_decode_mc_set_volume : decode cfg0 (.cmd 0xFF4653020220) = .ok (.mcSetVolume 0x20) ∧
    decode cfg0 (.cmd 0xFF4653020221) = .ok (.cmdFrame 0x02 0x21) := by decide
theorem test_decode_fc_unmute : decode cfg0 (.cmd 0xFF4653020480) = .ok .fcUnmute := by decide
/-- FC_SPOTIFY and FC_SWITCH_SPOTIFY have one code in CFG0; the earlier row of the table is read. -/
theorem test_decode_fc_spotify : decode cfg0 (.cmd 0xFF4653020580) = .ok .fcSpotify ∧
    encode cfg0 .fcSwitchSpotify = [.cmd 0xFF4653020580] := by decide
/-- Under other codes FC_SWITCH_SPOTIFY is read as itself. -/
theorem test_decode_fc_switch_spotify :
    decode { cfg0 with fcSwitchSpotify := ⟨0x0F, 0x80⟩ } (.cmd 0xFF4653020F80) = .ok .fcSwitchSpotify := by
  decide
theorem test_decode_fc_bt : decode cfg0 (.cmd 0xFF4653020680) = .ok .fcBt := by decide
theorem test_decode_fc_vol_up : decode cfg0 (.cmd 0xFF4653020780) = .ok .fcVolUp := by decide
theorem test_decode_fc_vol_down : decode cfg0 (.cmd 0xFF4653020880) = .ok .fcVolDown := by decide
theorem test_decode_fc_factory_reset : decode cfg0 (.cmd 0xFF4653020D80) = .ok .fcFactoryReset := by decide
theorem test_decode_fc_standby : decode cfg0 (.cmd 0xFF4653020E80) = .ok .fcStandby := by decide
theorem test_decode_rejects : decode cfg0 (.cmd 0xFF4654020100) = .error .badMagic ∧
    decode cfg0 (.cmd 0xFF4653030100) = .error .badLength ∧
    decode cfg0 (.status [0xFF, 0x46, 0x53]) = .error .truncated ∧
    decode cfg0 (.status [0xFF, 0x46, 0x53, 0x05, 1, 2, 3, 4, 5]) = .error .badLength ∧
    decode cfg0 (.unknown 8 0) = .error .noFormat := by decide

theorem test_command_frame_is_no_input : decodeInput cfg0 (.cmd 0xFF4653020680) = .error .notAnInput ∧
    decodeInput cfg0 (.stim 0x3000) = .ok .poll := by decide

/-! ### Single steps: the vectors of 95_test_vectors.md -/

/-- A script from reset (R91). -/
def script : State := { State.reset with scripted := true }

/-- The same at time `n`, the status request just sent. -/
def calm (n : Nat) : State :=
  { script with now := n, link := { script.link with tReq := ⟨true, n⟩ } }

/-- In mode `m`, sub-state `v`, at time `n`. -/
def inMode (m : Mode) (v : TaskState) (n : Nat) : State :=
  { calm n with fsm := { script.fsm with mode := m, nextMode := m, tasks := Tasks.allIdle.set m v } }

/-- The bus slave in state `b`, its counts and position as given. -/
def onBus (b : BusState) (r : Record) (rx : BitVec 2) (tx : BitVec 32) (pos : Byte) : State :=
  { script with bus := { script.bus with
    state := b, record := r, rxCount := rx, txCount := tx, txPos := pos } }

/-- What an instruction's next state holds. -/
def look {α : Type} (f : State → α) (i : Instr) (s : State) : Option α :=
  match exec i s with
  | .next t => some (f t)
  | .fault _ => none
  | .refused _ => none

/-- What the next state of a step holds, the transaction given as the opcode table numbers its bits. -/
def stepLook {α : Type} (f : State → α) (nbits w : Nat) (s : State) : Option α :=
  match step (s.withFetchWord nbits w) with
  | .next t => some (f t)
  | .fault _ => none
  | .refused _ => none

/-- The next step takes a stimulus word, and a command frame set to be sent by itself (FC_BT arms the
blocking timer). -/
theorem test_step_runs_the_table_word : stepLook (·.sync.rxFifo) 16 0x1046 script = some [0x46] ∧
    stepLook (·.fsm.tBlock) 48 0xFF4653020680 (calm 7) = some ⟨true, 7⟩ ∧
    stepLook (·.io.txLog) 48 0xFF4653020680 script = some [0xFF, 0x46, 0x53, 0x02, 0x06, 0x80] := by decide
/-- 93_implementation_defined.md I14: not taken, the mark set; and bytes that are no frame arrive. -/
theorem test_step_takes_what_is_in_no_format : stepLook (·.refused) 8 0 script = some true ∧
    runWires [.cmd 0xFF4653020680] State.reset = some (markRefused State.reset) ∧
    (strayInput (.status [0xFF, 0x46, 0x53, 0x05]) script).sync.rxFifo = [0xFF, 0x46, 0x53, 0x05] :=
  ⟨by decide, rfl, by decide⟩

/-- TM1. -/
theorem test_tick_wraps : look (·.now) (.tick 2) { script with now := 0xFFFFFFFF } = some 1 := by decide
/-- X7. -/
theorem test_tick100 : look (·.now) (.tick100 30) script = some 3000 := by decide
/-- S17. -/
theorem test_rxb_full : look (·.sync.rxFifo.length) (.rxb 0x11)
    { script with sync := { script.sync with rxFifo := List.replicate 64 0xAA } } = some 64 := by decide
/-- X1. -/
theorem test_rxb : look (·.sync.rxFifo) (.rxb 0x46) script = some [0x46] := by decide
/-- F23: the later event overwrites. -/
theorem test_post : look (·.fsm.event) (.post 0x05) (calm 0) = some 0x05 ∧
    look (·.fsm.event) (.post 0x42) { script with fsm := { script.fsm with event := 1 } } =
      some 0x42 := by decide
theorem test_scan : look (·.fsm.scanInProgress) (.scan true) script = some true := by decide
theorem test_txdrop : look (·.io.envTxDrop) (.txdrop 8) script = some 8 := by decide
/-- B17. -/
theorem test_baddrw : look (fun t => (t.bus.state, t.bus.rxCount, t.bus.txCount)) .baddrw
    (onBus .addrR Record.zero 2 3 0) = some (.addrW, 0, 3) := by decide
/-- R174. -/
theorem test_baddrr : look (fun t => (t.bus.state, t.bus.startPosition, t.bus.txPos, t.bus.txCount)) .baddrr
    (onBus .addrW ⟨3, 0, 0⟩ 1 7 0) = some (.addrR, 3, 3, 0) := by decide
/-- B1. -/
theorem test_bwr_outside_write : look (fun t => (t.io.ackLog, t.bus.record)) (.bwr 0x55) script =
    some ([false], Record.zero) := by decide
/-- R172, third byte: B2's record. -/
theorem test_bwr_third_byte : look (fun t => (t.io.ackLog, t.mem.read 11, t.bus.state)) (.bwr 0x02)
    (onBus .addrW ⟨0x0B, 0x01, 0⟩ 2 0 0) = some ([false], 0x01, .idle) := by decide
/-- TM6's first read; B13's first. -/
theorem test_brd : look (fun t => (t.io.rdLog, t.bus.txPos, t.bus.txCount)) .brd
    (onBus .addrR Record.zero 0 0 0) = some ([0x10], 1, 1) := by decide
/-- B14. -/
theorem test_brd_wraps : look (fun t => (t.bus.txPos, t.draws)) .brd (onBus .addrR Record.zero 0 0 255) =
    some (0, 1) := by decide
/-- B4. -/
theorem test_bstop_abandons : look (fun t => (t.bus.state, t.bus.record, t.io.txLog)) (.bstop false)
    (onBus .addrW ⟨0x02, 0x80, 0x01⟩ 1 0 0) = some (.idle, ⟨0x02, 0x80, 0x01⟩, []) := by decide
/-- B5. -/
theorem test_bstop_partial : look (fun t => (t.bus.state, t.bus.lastRxCount, t.io.txLog)) (.bstop true)
    (onBus .addrW ⟨0x02, 0x80, 0x01⟩ 1 0 0) =
      some (.idle, 1, [0xFF, 0x46, 0x53, 0x02, 0x03, 0x80]) := by decide
/-- B6. -/
theorem test_baf_receiving : look (fun t => (t.bus.lastRxCount, t.mem.read 8, t.indicator, t.bus.state)) .baf
    (onBus .addrW ⟨0x08, 0x21, 0x00⟩ 1 0 0) = some (1, 0x21, false, .idle) := by decide
/-- B8. -/
theorem test_baf_transmitting : look (fun t => (t.bus.lastTxCount, t.bus.txCount, t.bus.state)) .baf
    (onBus .addrR Record.zero 0 3 0) = some (3, 0, .idle) := by decide
/-- B10. -/
theorem test_berr : look (fun t => (t.bus.record, t.bus.rxCount, t.bus.state, t.io.txLog)) .berr
    (onBus .addrW ⟨0x0A, 0x20, 0⟩ 2 0 0) = some (Record.zero, 0, .idle, []) := by decide
/-- L1. -/
theorem test_poll_status_request : look (fun t => (t.io.txLog, t.link.tReq, t.mem.read 9)) .poll script =
    some ([0xFF, 0x46, 0x53, 0x02, 0x01, 0x00], ⟨true, 0⟩, 0x01) := by decide +kernel
/-- W3: the first POLL. -/
theorem test_poll_volume_change : look (fun t => (t.mem.read 6, t.fsm.volume, t.link.prev.b2,
      t.link.volInFlight, t.fsm.tasks.booting)) .poll
    { calm 0 with sync := { script.sync with rxFifo := [0xFF, 0x46, 0x53, 4, 0, 0, 0x8A, 0] } } =
      some (0x8A, 10, 0x8A, false, .init) := by decide +kernel
/-- R212, R253: the tail goes by the latched mode, Standby, although the POLL leaves it; in BluetoothA2DP
the same key sends FC_VOL_UP. -/
theorem test_poll_volume_key_at_stop :
    look (fun t => (t.io.txLog, t.fsm.mode)) .poll { inMode .standby .stop 9 with
      fsm := { (inMode .standby .stop 9).fsm with event := 0x01 } } = some ([], .spotifyConnect) ∧
    look (fun t => t.io.txLog) .poll { inMode .bluetoothA2DP .stop 9 with
      fsm := { (inMode .bluetoothA2DP .stop 9).fsm with event := 0x01 } } =
        some [0xFF, 0x46, 0x53, 0x02, 0x07, 0x80] := by decide +kernel
/-- TM4, TM5. -/
theorem test_reset : look (fun t => (t.now, t.faultRegfileOob, t.mem.read 0, t.io.envTxDrop)) .reset
    { script with now := 5, faultRegfileOob := true, mem := [], io := { script.io with envTxDrop := 3 } } =
      some (0, false, 0x10, 3) := by decide
/-- X3. -/
theorem test_illegal : look (fun t => (t.refused, t.fsm == script.fsm)) (.illegal 0x3001) script =
    some (true, true) := by decide
/-- R96. -/
theorem test_post_rows : look (·.fsm.event) .postNone (inMode .booting .run 0) = some 0 ∧
    look (·.fsm.event) .postVolUp script = some 1 ∧ look (·.fsm.event) .postVolDown script = some 2 ∧
    look (·.fsm.event) .postModeToggle script = some 3 ∧
    look (·.fsm.event) .postSetModeFromModule script = some 4 ∧
    look (·.fsm.event) .postPower script = some 5 ∧
    look (·.fsm.event) .postFactoryReset script = some 6 ∧
    look (·.fsm.event) .postModuleVolumeSet script = some 7 ∧
    look (·.fsm.event) (.postOther 0x42) script = some 0x42 := by decide
/-- P3 line 4. -/
theorem test_rxseq : look (·.sync.rxFifo) (.rxseq [0xFF, 0x46]) script = some [0xFF, 0x46] := by decide
/-- P1 line 2. -/
theorem test_rxstatus : look (·.sync.rxFifo) (.rxstatus 0x11 0x02 0x0F 0x00) script =
    some [0xFF, 0x46, 0x53, 0x04, 0x11, 0x02, 0x0F, 0x00] := by decide
/-- W7. -/
theorem test_bwrite : look (fun t => (t.io.ackLog, t.mem.read 2, t.io.txLog)) (.bwrite 0x02 0x80 0x01) script =
    some ([true, true, false], 0x80, [0xFF, 0x46, 0x53, 0x02, 0x03, 0x80]) := by decide
/-- P2 line 5. -/
theorem test_bsetidx : look (fun t => (t.bus.record.index, t.bus.rxCount, t.bus.state)) (.bsetidx 3) script =
    some (3, 1, .addrW) := by decide
/-- B12. -/
theorem test_bread : look (fun t => (t.io.rdLog, t.bus.lastTxCount, t.bus.state)) (.bread 4) script =
    some ([0x10, 0, 0, 0], 4, .idle) := by decide
/-- TM3. -/
theorem test_wait : look (·.now) (.wait 25599) script = some 25599 := by decide
theorem test_nop : look (fun t => t) .nop script = some script := by decide
/-- E2. -/
theorem test_cmd_frame_dropped : look (fun t => (t.io.txLog, t.io.envTxDrop)) (.cmdFrame 0x01 0x00)
    { script with io := { script.io with envTxDrop := 1 } } =
      some ([0x46, 0x53, 0x02, 0x01, 0x00], 0) := by decide
theorem test_status_frame : look (·.sync.rxFifo) (.statusFrame [0xAA]) script =
    some [0xFF, 0x46, 0x53, 0x01, 0xAA] := by decide
/-- RT12. -/
theorem test_write_record : look (fun t => (t.mem.read 0, t.io.txLog)) (.writeRecord 0 0x55 0) script =
    some (0x55, []) := by decide
/-- RT1. -/
theorem test_rec_reject : look (fun t => (t.mem == script.mem, t.io.ackLog, t.faultRegfileOob))
    (.recReject 0x10 0x05 0) script = some (true, [true, true, false], false) := by decide
/-- B2's record. -/
theorem test_rec_raw_store : look (fun t => (t.mem.read 11, t.io.txLog)) (.recRawStore 0x0B 0x01 0x02) script =
    some (0x01, []) := by decide
/-- RT3, RT4. -/
theorem test_rec_oob : look (fun t => (t.faultRegfileOob, t.mem == script.mem)) (.recOob 0x0F 0x05 0) script =
    some (true, true) := by decide
/-- RT7. -/
theorem test_rec_key_cmd_unknown : look (fun t => (t.mem.read 2, t.io.txLog)) (.recKeyCmd 0x80 0x0C) script =
    some (0x80, []) := by decide
/-- RT11. -/
theorem test_rec_aux_ctrl : look (fun t => (t.indicator, t.mem.read 8)) (.recAuxCtrl 0x01 0x01)
    { script with indicator := true } = some (true, 0x01) := by decide
/-- RT10. -/
theorem test_rec_aux_ctrl_sets : look (·.indicator) (.recAuxCtrl 0x01 0x00) script = some true := by decide
/-- W6. -/
theorem test_rec_volume_set : look (fun t => (t.mem.read 10, t.io.txLog)) (.recVolumeSet 0x20 0) script =
    some (0x20, [0xFF, 0x46, 0x53, 0x02, 0x02, 0x20]) := by decide
/-- RT8. -/
theorem test_rec_volume_set_rejects : look (fun t => (t.mem.read 10, t.io.txLog)) (.recVolumeSet 0x21 0x01)
    script = some (0x21, []) := by decide
/-- R93: each key's frame; RT6 for the factory-reset key. -/
theorem test_key_rows :
    look (·.io.txLog) (.keyMute 0x80) script = some [0xFF, 0x46, 0x53, 0x02, 0x03, 0x80] ∧
    look (·.io.txLog) (.keyUnmute 0) script = some [0xFF, 0x46, 0x53, 0x02, 0x04, 0x80] ∧
    look (·.io.txLog) (.keySpotifyMode 0) script = some [0xFF, 0x46, 0x53, 0x02, 0x05, 0x80] ∧
    look (·.io.txLog) (.keyBtMode 0) script = some [0xFF, 0x46, 0x53, 0x02, 0x06, 0x80] ∧
    look (·.io.txLog) (.keyVolUp 0) script = some [0xFF, 0x46, 0x53, 0x02, 0x07, 0x80] ∧
    look (·.io.txLog) (.keyVolDown 0) script = some [0xFF, 0x46, 0x53, 0x02, 0x08, 0x80] ∧
    look (·.io.txLog) (.keyPlayPause 0) script = some [0xFF, 0x46, 0x53, 0x02, 0x09, 0x80] ∧
    look (·.io.txLog) (.keyNext 0) script = some [0xFF, 0x46, 0x53, 0x02, 0x0A, 0x80] ∧
    look (·.io.txLog) (.keyPrev 0) script = some [0xFF, 0x46, 0x53, 0x02, 0x0B, 0x80] ∧
    look (·.io.txLog) (.keyResetNetwork 0) script = some [0xFF, 0x46, 0x53, 0x02, 0x0C, 0x80] ∧
    look (·.io.txLog) (.keyFactoryReset 0) script = some [0xFF, 0x46, 0x53, 0x02, 0x0D, 0x80] := by decide
/-- R94: each command's frame. -/
theorem test_command_rows :
    look (·.io.txLog) .mcStatusReq script = some [0xFF, 0x46, 0x53, 0x02, 0x01, 0x00] ∧
    look (·.io.txLog) (.mcSetVolume 0x20) script = some [0xFF, 0x46, 0x53, 0x02, 0x02, 0x20] ∧
    look (·.io.txLog) .fcUnmute script = some [0xFF, 0x46, 0x53, 0x02, 0x04, 0x80] ∧
    look (·.io.txLog) .fcSpotify script = some [0xFF, 0x46, 0x53, 0x02, 0x05, 0x80] ∧
    look (·.io.txLog) .fcSwitchSpotify script = some [0xFF, 0x46, 0x53, 0x02, 0x05, 0x80] ∧
    look (·.io.txLog) .fcBt script = some [0xFF, 0x46, 0x53, 0x02, 0x06, 0x80] ∧
    look (·.io.txLog) .fcVolUp script = some [0xFF, 0x46, 0x53, 0x02, 0x07, 0x80] ∧
    look (·.io.txLog) .fcVolDown script = some [0xFF, 0x46, 0x53, 0x02, 0x08, 0x80] ∧
    look (·.io.txLog) .fcFactoryReset script = some [0xFF, 0x46, 0x53, 0x02, 0x0D, 0x80] ∧
    look (·.io.txLog) .fcStandby script = some [0xFF, 0x46, 0x53, 0x02, 0x0E, 0x80] := by decide
/-- What the commands' rules write with the send (R130, R226, R243, R254). -/
theorem test_command_rows_state :
    look (·.link.tReq) .mcStatusReq { script with now := 7 } = some ⟨true, 7⟩ ∧
    look (·.fsm.tBlock) .fcSpotify { script with now := 7 } = some ⟨true, 7⟩ ∧
    look (·.fsm.tBlock) .fcSwitchSpotify { script with now := 7 } = some ⟨true, 7⟩ ∧
    look (·.fsm.tBlock) .fcBt { script with now := 7 } = some ⟨true, 7⟩ ∧
    look (·.fsm.tBlock) .fcStandby { script with now := 7 } = some ⟨true, 7⟩ ∧
    look (·.link.tEcho) .fcVolUp { script with now := 7 } = some ⟨true, 7⟩ ∧
    look (·.link.tEcho) .fcVolDown { script with now := 7 } = some ⟨true, 7⟩ ∧
    look (·.link.ready) .fcFactoryReset
      { script with link := { script.link with ready := true } } = some false ∧
    look (·.fsm.tBlock) .fcUnmute { script with now := 7 } = some ⟨false, 0⟩ := by decide

/-! ### Operations of a POLL on the spec's vectors -/

/-- W5, L3. -/
theorem test_convert : convert true 10 = 0x8A ∧ convert false 32 = 0x20 ∧ convert true 0 = 0x80 ∧
    convert false 127 = 0x7F ∧ convert true 127 = 0xFF := by decide
/-- TM2. -/
theorem test_elapsed_wraps : elapsed cfg0 0x00000010 ⟨true, 0xFFFFFF00⟩ = 0x110 := by decide
/-- S3, S5, S8, S10. -/
theorem test_sync_byte :
    (syncByte 0x00 { script with sync := { script.sync with state := .awaitM2 } }).2.sync.state = .awaitM2 ∧
    (syncByte 0xFF { script with sync := { script.sync with state := .awaitM3 } }).2.sync.state = .awaitM2 ∧
    (syncByte 0x05 { script with sync := { script.sync with state := .collect } }).2.sync.state = .awaitM1 ∧
    (syncByte 0x00 { script with sync := { script.sync with state := .collect } }).1 = true := by decide
/-- F7. -/
theorem test_boot_rule :
    bootRuleOf cfg0 ⟨0x02, 0, 0, 0⟩ = .networkConfig ∧ bootRuleOf cfg0 ⟨0x01, 0, 0, 0⟩ = .spotifyConnect ∧
    bootRuleOf cfg0 ⟨0x00, 0, 0, 0⟩ = .networkConfig ∧
    bootRuleOf { cfg0 with configStandby := true } ⟨0x02, 0, 0, 0⟩ = .networkConfig ∧
    bootRuleOf { cfg0 with configStandby := true } ⟨0x01, 0, 0, 0⟩ = .standby ∧
    bootRuleOf { cfg0 with configStandby := true } ⟨0x00, 0, 0, 0⟩ = .standby := by decide
/-- F12. -/
theorem test_boot_settle :
    (bootRun { inMode .booting .run 2999 with link := (calm 0).link }).fsm.tasks.booting = .run ∧
    (bootRun { inMode .booting .run 3000 with link := (calm 0).link }).fsm.tasks.booting = .stop := by decide
/-- F15, F17. -/
theorem test_offline_switch :
    (switchWhenOffline (inMode .networkConfig .run 9)).io.txLog = [0xFF, 0x46, 0x53, 0x02, 0x05, 0x80] ∧
    (switchWhenOffline { inMode .networkConfig .run 9 with
      link := { (calm 9).link with cur := ⟨0x02, 0, 0, 0⟩ } }).io.txLog = [] := by decide

/-! ### Witnesses: a state and operands that meet an obligation's hypotheses, clause by clause -/

theorem witness_WaitAdvancesByItsMilliseconds : State.reset.now < 2 ^ State.reset.cfg.tickBits := by decide
theorem witness_ReceivedBytesQueueInOrder : ([] : List Byte).length ≤ 4 ∧ [1, 2, 3, (4 : Byte)].length ≤ 4 := by
  decide
theorem witness_TxdropAbandonsOfferedBytes :
    0 < { script with io := { script.io with envTxDrop := 1 } }.io.envTxDrop ∧ script.io.envTxDrop = 0 := by
  decide
theorem witness_PowerOnIsTheResetState : { script with now := 5, indicator := true }.cfg = State.reset.cfg :=
  rfl
theorem witness_BwrStoresAcknowledgesAndRoutes :
    script.bus.state ≠ .addrW ∧
    ((onBus .addrW Record.zero 0 0 0).bus.state = .addrW ∧ (onBus .addrW Record.zero 0 0 0).bus.rxCount = 0) ∧
    ((onBus .addrW Record.zero 1 0 0).bus.state = .addrW ∧ (onBus .addrW Record.zero 1 0 0).bus.rxCount = 1) ∧
    ((onBus .addrW Record.zero 2 0 0).bus.state = .addrW ∧
      (onBus .addrW Record.zero 2 0 0).bus.rxCount = 2) := by decide
theorem witness_BrdReturnsRegisterByte :
    ((onBus .addrR Record.zero 0 0 11).bus.state = .addrR ∧
      (onBus .addrR Record.zero 0 0 11).bus.txPos.toNat < 12) ∧
    ((onBus .addrR Record.zero 0 0 12).bus.state = .addrR ∧
      12 ≤ (onBus .addrR Record.zero 0 0 12).bus.txPos.toNat) ∧
    script.bus.state ≠ .addrR := by decide
/-- The second of two bytes from index 10 is at index 11. -/
theorem witness_BreadStreamsRegisters :
    1 < 2 ∧ ((onBus .idle ⟨10, 0, 0⟩ 0 0 0).bus.record.index.toNat + 1) % 256 < 12 := by decide
theorem witness_TransactionEndings :
    ((onBus .addrW Record.zero 2 0 0).bus.state = .addrW ∧
      (onBus .addrW Record.zero 2 0 0).bus.rxCount.toNat < 3) ∧
    ((onBus .addrW Record.zero 3 0 0).bus.rxCount.toNat = 3 ∧ script.bus.state ≠ .addrW) ∧
    (onBus .addrR Record.zero 0 3 0).bus.state = .addrR ∧ script.bus.state = .idle := by decide
theorem witness_BusAgentLeavesTheRestAlone :
    { script with mem := [(0, 0x10), (11, 0x05)] }.mem.wf = true ∧
    Instr.bstop true ∈ [.baddrw, .baddrr, .brd, .bstop false, .bstop true, .baf, .berr] ∧
    Instr.recOob 12 0 0 ∈ [.writeRecord 12 0 0, .bwrite 12 0 0, .recReject 12 0 0, .recRawStore 12 0 0,
      .recOob 12 0 0] ∧
    Instr.keyMute 0x80 = keyRow .mute 0x80 := by decide
theorem witness_RecordsOutsideTheStorage :
    16 ≤ (0x10 : Byte).toNat ∧ 16 ≤ (0xFF : Byte).toNat ∧
    (12 ≤ (0x0C : Byte).toNat ∧ (0x0C : Byte).toNat ≤ 15) ∧
    (12 ≤ (0x0F : Byte).toNat ∧ (0x0F : Byte).toNat ≤ 15) ∧
    Instr.recOob 12 5 0 ∈ [Instr.recOob 12 5 0, .writeRecord 12 5 0, .bwrite 12 5 0] := by decide
theorem witness_RawStoreWritesLowByte :
    (0 : Byte).toNat < 12 ∧ (11 : Byte).toNat < 12 ∧ script.mem.wf = true ∧
    Instr.recRawStore 11 1 2 ∈ [Instr.recRawStore 11 1 2, .writeRecord 11 1 2, .bwrite 11 1 2] ∧
    (11 : Byte) ≠ 2 ∧ (11 : Byte) ≠ regByte script.cfg.regVolumeSet ∧
    (11 : Byte) ≠ regByte script.cfg.regAuxCtrl := by decide
theorem witness_ReadsReflectTheLatestWrite :
    (11 : Byte).toNat < 12 ∧ script.mem.wf = true ∧ script.cfg.rawStoreMode = .byte := by decide
theorem witness_KeyRecordForwardsTheKey :
    Instr.recKeyCmd 0x80 0x0C ∈ [Instr.recKeyCmd 0x80 0x0C, .writeRecord 2 0x80 0x0C, .bwrite 2 0x80 0x0C] ∧
    keyOf script.cfg 0x0C = none ∧ keyOf script.cfg 0x01 = some .mute ∧
    keyOf script.cfg 0x0B = some .factoryReset := by decide
theorem witness_EveryKeyRowSendsItsCommand :
    (∀ j, (script.cfg.keyCode j).payload = (script.cfg.keyCode .next).payload → j = .next) ∧
    (Key.next, Instr.keyNext 5).1 = .next := by
  refine ⟨fun j => ?_, rfl⟩
  cases j <;> decide
theorem witness_MuteRecordSendsWorkedFrame : script.scripted = true ∧ script.io.envTxDrop = 0 ∧
    Instr.keyMute 0x80 ∈ [Instr.keyMute 0x80, .recKeyCmd 0x80 0x01, .writeRecord 0x02 0x80 0x01,
      .bwrite 0x02 0x80 0x01] := by decide
theorem witness_VolumeSetAndAuxRecords : script.cfg.regsDistinct = true ∧ (32 : Byte).toNat ≤ 32 := by decide
theorem witness_CutShortWriteRoutesStaleBytes : script.cfg.partialRecordPolicy = .processRetained := by decide
theorem witness_CommandRowsSendTheirFrames : script.quietPoints := rfl

/-- A script with stimuli in store for the coming interrupt points. -/
def withPoints (l : List (List IpStim)) : State := { script with input := { script.input with ipSched := l } }

theorem witness_InterruptedFrameKeepsItsBytes :
    (withPoints [[.bwr 1], [.tick 1]]).scripted = true ∧ (withPoints [[.bwr 1], [.tick 1]]).io.envTxDrop = 0 ∧
    ∀ is ∈ (withPoints [[.bwr 1], [.tick 1]]).input.ipSched, ∀ i ∈ is, ∀ n, i ≠ .txdrop n := by
  refine ⟨rfl, rfl, ?_⟩
  simp [withPoints]

/-- The synchronizer in state `st`, with the length and count as given and `fifo` queued. -/
def syncAt (st : SyncState) (len count : BitVec 3) (fifo : List Byte) : State :=
  { calm 0 with sync := { script.sync with rxFifo := fifo, state := st, len := len, count := count } }

theorem witness_MagicByteScan : (syncAt .awaitM1 0 0 []).sync.state = .awaitM1 ∧
    (syncAt .awaitM2 0 0 []).sync.state = .awaitM2 ∧ (syncAt .awaitM3 0 0 []).sync.state = .awaitM3 := by decide
theorem witness_CollectedBytes :
    ((syncAt .collect 0 0 []).sync.state = .collect ∧ (syncAt .collect 0 0 []).sync.count = 0 ∧
      4 < (0x05 : Byte).toNat ∧ ((0x04 : Byte) ≠ 0 ∧ (0x04 : Byte).toNat ≤ 4)) ∧
    (1 ≤ (syncAt .collect 4 1 []).sync.count.toNat ∧ (syncAt .collect 4 1 []).sync.count.toNat ≤ 4 ∧
      (syncAt .collect 4 1 []).sync.count ≠ (syncAt .collect 4 1 []).sync.len) ∧
    (1 ≤ (syncAt .collect 4 4 []).sync.count.toNat ∧ (syncAt .collect 4 4 []).sync.count.toNat ≤ 4 ∧
      (syncAt .collect 4 4 []).sync.count = (syncAt .collect 4 4 []).sync.len) := by decide
/-- W1 (b) and W2. -/
theorem witness_StatusFrameReportedOnce :
    (calm 0).quietPoints ∧ (calm 0).sync.state = .awaitM1 ∧
    ([0x21, 0x31, 0x8A, 0x00] : List Byte).length ≤ 4 ∧ (calm 0).sync.rxFifo = [] ∧
    [[0xFF, 0x46], [], [0x53, 0x04, 0x21, 0x31], [0x8A, 0x00]].flatten =
      ([0xFF, 0x46, 0x53, BitVec.ofNat 8 4] ++ [0x21, 0x31, 0x8A, 0x00] : List Byte) ∧
    (syncAt .awaitM1 0 0 [0xFF, 0x46, 0x53, 0x05, 0xAA]).sync.rxFifo =
      [0xFF, 0x46, 0x53, 0x05] ++ [0xAA] ∧ 4 < (0x05 : Byte).toNat :=
  ⟨rfl, rfl, by decide, rfl, by decide, rfl, by decide⟩
/-- L2: 999 and 1000 ms after the request. -/
theorem witness_StatusRequestWhenDue :
    script.link.tReq.armed = false ∧
    script.cfg.statusReqIntervalMs ≤ (1000 + (2 ^ script.cfg.tickBits - 0 % 2 ^ script.cfg.tickBits))
      % 2 ^ script.cfg.tickBits ∧
    (calm 0).link.tReq.armed = true ∧
    (999 + (2 ^ script.cfg.tickBits - 0 % 2 ^ script.cfg.tickBits)) % 2 ^ script.cfg.tickBits
      < script.cfg.statusReqIntervalMs := by decide

/-- The two snapshots as given. -/
def snaps (cur prev : Quad) : State := { calm 0 with link := { (calm 0).link with cur := cur, prev := prev } }

theorem witness_DiffActsOnFirstDifference :
    (snaps ⟨1, 0, 5, 0⟩ Quad.zero).link.cur.b0 ≠ (snaps ⟨1, 0, 5, 0⟩ Quad.zero).link.prev.b0 ∧
    ((snaps ⟨0, 1, 5, 0⟩ Quad.zero).link.cur.b0 = (snaps ⟨0, 1, 5, 0⟩ Quad.zero).link.prev.b0 ∧
      (snaps ⟨0, 1, 5, 0⟩ Quad.zero).link.cur.b1 ≠ (snaps ⟨0, 1, 5, 0⟩ Quad.zero).link.prev.b1) ∧
    ((snaps ⟨0, 0, 5, 4⟩ Quad.zero).link.cur.b1 = (snaps ⟨0, 0, 5, 4⟩ Quad.zero).link.prev.b1 ∧
      (snaps ⟨0, 0, 5, 4⟩ Quad.zero).link.cur.b2 ≠ (snaps ⟨0, 0, 5, 4⟩ Quad.zero).link.prev.b2) ∧
    ((snaps ⟨0, 0, 0, 4⟩ Quad.zero).link.cur.b2 = (snaps ⟨0, 0, 0, 4⟩ Quad.zero).link.prev.b2 ∧
      (snaps ⟨0, 0, 0, 4⟩ Quad.zero).link.cur.b3 ≠ (snaps ⟨0, 0, 0, 4⟩ Quad.zero).link.prev.b3) ∧
    (snaps Quad.zero Quad.zero).link.cur = (snaps Quad.zero Quad.zero).link.prev := by decide
/-- A frame of length 0 and one of length 4, a byte behind the first (S13); and an empty queue. -/
theorem witness_PollTakesQueuedStatusFrame :
    ((syncAt .awaitM1 0 0 []).quietPoints ∧ (syncAt .awaitM1 0 0 []).sync.rxFifo = []) ∧
    ([] : List Byte).length ≤ 4 ∧ (syncAt .awaitM1 0 0 [0xFF, 0x46, 0x53, 0x00, 0xFF]).quietPoints ∧
    (syncAt .awaitM1 0 0 [0xFF, 0x46, 0x53, 0x00, 0xFF]).sync.state = .awaitM1 ∧
    (syncAt .awaitM1 0 0 [0xFF, 0x46, 0x53, 0x00, 0xFF]).sync.rxFifo =
      [0xFF, 0x46, 0x53, BitVec.ofNat 8 ([] : List Byte).length] ++ [] ++ [0xFF] ∧
    ([1, 2, 3, 4] : List Byte).length ≤ 4 ∧
    (syncAt .awaitM1 0 0 [0xFF, 0x46, 0x53, 0x04, 1, 2, 3, 4]).sync.rxFifo =
      [0xFF, 0x46, 0x53, BitVec.ofNat 8 ([1, 2, 3, 4] : List Byte).length] ++ [1, 2, 3, 4] ++ [] ∧
    ¬ ((syncAt .awaitM1 0 0 []).fsm.mode = .factoryReset ∧
      (syncAt .awaitM1 0 0 []).fsm.tasks.factoryReset = .init) :=
  ⟨⟨rfl, rfl⟩, by decide, rfl, rfl, by decide, by decide, by decide, by decide⟩

theorem linkQuiet_inMode (m : Mode) (v : TaskState) : (inMode m v 9).linkQuiet :=
  ⟨rfl, rfl, show running cfg0 9 ⟨true, 9⟩ 1000 = true by decide⟩

/-- With nothing queued and no request due the link step leaves a mode as it is. -/
theorem inMode_linkStep (m : Mode) (v : TaskState) : inMode m v 9 = linkStep (inMode m v 9) :=
  (linkStep_quiet (linkQuiet_inMode m v)).symm

theorem witness_PollAtStopLeavesTheMode : ∀ m : Mode, m ≠ .idle →
    (inMode m .stop 9).quietPoints ∧ inMode m .stop 9 = linkStep (inMode m .stop 9) ∧
    (inMode m .stop 9).fsm.tasks.get (inMode m .stop 9).fsm.mode = .stop ∧
    (inMode m .stop 9).fsm.mode ≠ .idle :=
  fun m h => ⟨rfl, inMode_linkStep m _, by cases m <;> rfl, h⟩
theorem witness_PollAtIdleEntersInit : ∀ m : Mode,
    (inMode m .idle 9).quietPoints ∧ inMode m .idle 9 = linkStep (inMode m .idle 9) ∧
    (inMode m .idle 9).fsm.tasks.get (inMode m .idle 9).fsm.mode = .idle :=
  fun m => ⟨rfl, inMode_linkStep m _, by cases m <;> rfl⟩
theorem witness_PollAtInitRunsEntryAction : ∀ m : Mode, m ≠ .idle →
    (inMode m .init 9).quietPoints ∧ inMode m .init 9 = linkStep (inMode m .init 9) ∧
    (inMode m .init 9).fsm.tasks.get (inMode m .init 9).fsm.mode = .init ∧
    (inMode m .init 9).fsm.mode ≠ .idle :=
  fun m h => ⟨rfl, inMode_linkStep m _, by cases m <;> rfl, h⟩
theorem witness_PollAtRunHandlesTheTick : ∀ m : Mode, m ≠ .idle →
    ((inMode m .run 9).quietPoints ∧ inMode m .run 9 = linkStep (inMode m .run 9) ∧
      (inMode m .run 9).fsm.tasks.get (inMode m .run 9).fsm.mode = .run ∧ (inMode m .run 9).fsm.mode ≠ .idle) ∧
    ((inMode .networkConfig .pause 9).quietPoints ∧
      inMode .networkConfig .pause 9 = linkStep (inMode .networkConfig .pause 9) ∧
      (inMode .networkConfig .pause 9).fsm.tasks.get (inMode .networkConfig .pause 9).fsm.mode = .pause ∧
      (inMode .networkConfig .pause 9).fsm.mode = .networkConfig) :=
  fun m h => ⟨⟨rfl, inMode_linkStep m _, by cases m <;> rfl, h⟩, rfl, inMode_linkStep _ _, rfl, rfl⟩

/-- BT Run with snapshot byte 1 as given, the blocking timer unarmed or armed at `start`. -/
def btRun (b1 : Byte) (block : Timer) (now : Nat) : State :=
  { inMode .bluetoothA2DP .run now with
    link := { (calm now).link with cur := ⟨0, b1, 0, 0⟩ }
    fsm := { (inMode .bluetoothA2DP .run now).fsm with tBlock := block } }

/-- F11, F9, F8, F6. -/
theorem witness_UserModeEvents :
    ((btRun 0x02 Timer.unarmed 9).fsm.tasks.get (btRun 0x02 Timer.unarmed 9).fsm.mode = .run ∧
      (btRun 0x02 Timer.unarmed 9).fsm.mode ∈ [.bluetoothA2DP, .spotifyConnect, .networkConfig]) ∧
    ((inMode .factoryReset .run 9).fsm.tasks.get (inMode .factoryReset .run 9).fsm.mode = .run ∧
      (inMode .factoryReset .run 9).fsm.mode ∈
        [.bluetoothA2DP, .spotifyConnect, .networkConfig, .factoryReset]) ∧
    (moduleModeOf cfg0 (modeNibOf cfg0 (btRun 0x02 Timer.unarmed 9).link.cur.b1) = some .spotifyConnect ∧
      .spotifyConnect ≠ (btRun 0x02 Timer.unarmed 9).fsm.mode ∧
      expired cfg0 9 (btRun 0x02 Timer.unarmed 9).fsm.tBlock cfg0.blockMs = true) ∧
    expired cfg0 1999 (btRun 0x02 ⟨true, 0⟩ 1999).fsm.tBlock cfg0.blockMs = false ∧
    moduleModeOf cfg0 (modeNibOf cfg0 (btRun 0x05 Timer.unarmed 9).link.cur.b1) = none ∧
    moduleModeOf cfg0 (modeNibOf cfg0 (btRun 0x01 Timer.unarmed 9).link.cur.b1) =
      some (btRun 0x01 Timer.unarmed 9).fsm.mode ∧
    ((0x05 : Byte) ≠ 0x03 ∧ (0x05 : Byte) ≠ 0x04 ∧ (0x42 : Byte) ≠ 0x05) := by decide
theorem witness_GraceAndOfflineSwitch :
    (inMode .spotifyConnect .run 9).fsm.mode = .spotifyConnect ∧
    (inMode .spotifyConnect .run 9).fsm.tasks.spotifyConnect = .run ∧
    (inMode .networkConfig .run 9).quietPoints := ⟨rfl, rfl, rfl⟩
theorem witness_TailActsOnTheEvent : (inMode .booting .run 9).quietPoints := rfl
theorem witness_PollClearsCountsAndFrames :
    (inMode .booting .run 9).quietPoints ∧ (inMode .booting .run 9).mem.wf = true ∧
    (inMode .booting .run 9).cfg.configDiagCounter = true ∧
    11 ∉ [cfg0.regWifiBt.val, cfg0.regMode.val, cfg0.regSpotify.val, cfg0.regVolumeMute.val,
      cfg0.regError.val, cfg0.regBootFlags.val, cfg0.regAuxDiag.val] := ⟨rfl, by decide, rfl, by decide⟩

/-- F22: a toggle in Standby's slot; a status frame queued; bus traffic, a byte and a volume key at the
interrupt points. -/
def standbyBusy : State :=
  { inMode .standby .run 9 with
    sync := { (inMode .standby .run 9).sync with rxFifo := [0xFF, 0x46, 0x53, 0x01, 0x21] }
    fsm := { (inMode .standby .run 9).fsm with event := 0x03 }
    input := (withPoints [[.bwr 1], [.rxb 0xFF, .post 0x01]]).input }

theorem witness_StandbyHeedsPowerAlone :
    (standbyBusy.fsm.mode = .standby ∧ standbyBusy.fsm.tasks.standby = .run ∧
      (interruptPoint (linkStep standbyBusy)).fsm.event ≠ 0x05) ∧
    (standbyBusy.fsm.event ≠ 0x05 ∧ ∀ is ∈ standbyBusy.input.ipSched, .post 0x05 ∉ is) ∧
    ((inMode .idle .idle 9).fsm.mode = .idle ∧ (inMode .idle .idle 9).fsm.tasks.idle = .idle) := by
  refine ⟨⟨rfl, rfl, by decide⟩, ⟨by decide, ?_⟩, rfl, rfl⟩
  simp [standbyBusy, withPoints]

/-- SpotifyConnect at Stop, BluetoothA2DP requested, a POLL pending (P4 line 4). -/
def stopping : State :=
  { inMode .spotifyConnect .stop 9 with
    fsm := { (inMode .spotifyConnect .stop 9).fsm with nextMode := .bluetoothA2DP }
    input := ⟨[.stim 0x3000], [], none⟩ }

theorem inv_stopping : Inv stopping where
  memWf := by decide
  nowLt := by decide
  reqLt := by decide
  echoLt := by decide
  blockLt := by decide
  debounceLt := by decide
  bootLt := by decide
  graceLt := by decide
  fifo := by decide
  lenLe := by decide
  countLe := by decide
  bufCur := by decide
  busState := by decide
  rxCount := by decide
  tasksIdle := fun m h => by cases m <;> first | rfl | exact absurd rfl h
  idleInert := rfl
  pauseOnly := fun m h => by cases m <;> first | rfl | cases h
  prevMode := .inr (.inl rfl)
  nextMode := fun h => absurd rfl h

theorem witness_RequestedModeRunsAfterThreePolls :
    Inv stopping ∧ stopping.linkQuiet ∧ stopping.fsm.tasks.get stopping.fsm.mode = .stop ∧
    .bluetoothA2DP = (if stopping.fsm.mode = .standby then
        (if inWifiSetup stopping.cfg stopping.link.cur then .networkConfig else stopping.fsm.prevMode)
      else stopping.fsm.nextMode) ∧
    Mode.bluetoothA2DP ≠ .idle ∧ Mode.bluetoothA2DP ≠ .booting :=
  ⟨inv_stopping, ⟨rfl, rfl, by decide⟩, rfl, by decide, by decide, by decide⟩
/-- F12: the last quiet millisecond of the settle period, and its end. -/
theorem witness_BootingSelectsAStartupMode :
    (inMode .booting .run 2999).linkQuiet ∧ (inMode .booting .run 2999).fsm.mode = .booting ∧
    (inMode .booting .run 2999).fsm.tasks.booting = .run ∧ (inMode .booting .run 2999).fsm.event ≠ 0x06 ∧
    elapsed cfg0 2999 (inMode .booting .run 2999).fsm.tBoot < cfg0.bootSettleMs ∧
    ((inMode .booting .run 3000).linkQuiet ∧
      cfg0.bootSettleMs ≤ elapsed cfg0 3000 (inMode .booting .run 3000).fsm.tBoot) :=
  ⟨⟨rfl, rfl, by decide⟩, rfl, rfl, by decide, by decide, ⟨rfl, rfl, by decide⟩, by decide⟩
theorem witness_OnlyPollMovesTheModeMachine : Instr.fcBt ≠ .poll ∧ Instr.fcBt ≠ .reset := by decide
theorem witness_NowMovesOnlyByTicks :
    (∀ is ∈ (withPoints [[.bwr 1], [.rxb 5, .scan true]]).input.ipSched, ∀ j ∈ is,
      (∀ n, j ≠ .tick n) ∧ ∀ n, j ≠ .tick100 n) ∧
    (∀ n, Instr.poll ≠ .tick n) ∧ (∀ n, Instr.poll ≠ .tick100 n) ∧
    (∀ w, Instr.poll ≠ .wait w) ∧ Instr.poll ≠ .reset := by
  refine ⟨?_, nofun, nofun, nofun, nofun⟩
  simp [withPoints]
theorem witness_MarksStickAndConfigurationStays :
    Instr.poll ≠ .reset ∧ { script with faultRegfileOob := true }.faultRegfileOob = true ∧
    { script with refused := true }.refused = true := by decide
/-- A record completed at the first interrupt point against a TXDROP there. -/
theorem witness_BusStimuliDoNotSteerThePoll :
    (withPoints [[.bwr 1], [.tick 1]]).fsm = (withPoints [[.txdrop 3], [.tick 1, .brd]]).fsm ∧
    (withPoints [[.bwr 1], [.tick 1]]).input.ipSched.map (fun is => is.filter IpStim.environment) =
      (withPoints [[.txdrop 3], [.tick 1, .brd]]).input.ipSched.map
        (fun is => is.filter IpStim.environment) := by decide
theorem witness_StepKeepsTheStateInvariant : Inv stopping ∧ ∃ t, step stopping = .next t :=
  ⟨inv_stopping, _, rfl⟩
theorem witness_StepKeepsTheFactoryFlag :
    Cfg.noFactoryTarget stopping.cfg ∧ Inv stopping ∧ FactoryFlag stopping ∧ ∃ t, step stopping = .next t :=
  ⟨⟨by decide, by decide⟩, inv_stopping,
    ⟨by decide, by decide, by decide, by decide, by decide⟩, _, rfl⟩
theorem witness_EncodedInstructionDecodesToItself :
    (Instr.mcSetVolume 32).wf = true ∧ isPrimary cfg0 (.mcSetVolume 32) = true ∧
    (Instr.recOob 15 1 2).wf = true ∧ isPrimary cfg0 (.recOob 15 1 2) = true := by decide
theorem witness_DecodedTransactionReencodes :
    decode cfg0 (.record 0x0C0102) = .ok (.recOob 12 1 2) ∧
    decode cfg0 (.status [0xFF, 0x46, 0x53, 0x00]) = .ok (.statusFrame []) := by decide
theorem witness_StepRunsTheDecodedInstruction :
    (stopping.input.issue = none ∧ stopping.input.pending = .stim 0x3000 :: [] ∧
      decode stopping.cfg (.stim 0x3000) = .ok .poll ∧ ∀ w, Wire.stim 0x3000 ≠ .cmd w) ∧
    ((fetchSlot (.status [1, 2, 3, 4]) script.input).pending = .status [1, 2, 3, 4] :: [] ∧
      decode script.cfg (.status [1, 2, 3, 4]) = .error .badMagic) ∧
    (fetchSlot (.unknown 8 0) script.input).pending = .unknown 8 0 :: [] ∧
    (script.input.issue = none ∧ script.input.pending = []) ∧
    ((fetchSlot (.cmd 0xFF4653020680) script.input).issue = some 0xFF4653020680 ∧
      decode script.cfg (.cmd 0xFF4653020680) = .ok .fcBt ∧
      decode script.cfg (.cmd 0xFF4654020680) = .error .badMagic) :=
  ⟨⟨rfl, rfl, by decide, nofun⟩, ⟨rfl, by decide⟩, rfl, ⟨rfl, rfl⟩, rfl, by decide, by decide⟩
theorem witness_OwnWordsRunTheInstruction :
    ((Instr.bread 2).wf = true ∧ script.input.pending = [] ∧ script.input.issue = none ∧
      ∀ w, Wire.cmd w ∉ encode script.cfg (.bread 2)) ∧
    (Instr.fcBt.wf = true ∧ .cmd 0xFF4653020680 ∈ encode script.cfg .fcBt ∧
      isPrimary script.cfg .fcBt = true) ∧ stopping.input.issue = none := by
  refine ⟨⟨by decide, rfl, rfl, fun w => ?_⟩, ⟨by decide, by decide, by decide⟩, rfl⟩
  simp [encode, stimWord, List.replicate]

end Sys2Proof.Tests
end

section
/-! PROOF. every presented transaction is a run of the stimulus words of R90
(00_scope.md R1; 30_encoding.md R90 to R92), and an instruction's own words run it. -/

namespace Sys2Proof

/-! ### The decoder on the stimulus words the encoder writes -/

theorem decodeStim_tick (n : Byte) : decodeStim ((0x01 : Byte) ++ n) = .tick n := by
  simp [decodeStim, stimKind_word, stimOperand_word]

theorem decodeStim_tick100 (n : Byte) : decodeStim ((0x02 : Byte) ++ n) = .tick100 n := by
  simp [decodeStim, stimKind_word, stimOperand_word]

theorem decodeStim_rxb (b : Byte) : decodeStim ((0x10 : Byte) ++ b) = .rxb b := by
  simp [decodeStim, stimKind_word, stimOperand_word]

theorem decodeStim_post (e : Byte) : decodeStim ((0x11 : Byte) ++ e) = .post e := by
  simp [decodeStim, stimKind_word, stimOperand_word]

theorem decodeStim_txdrop (n : Byte) : decodeStim ((0x13 : Byte) ++ n) = .txdrop n := by
  simp [decodeStim, stimKind_word, stimOperand_word]

theorem decodeStim_bwr (b : Byte) : decodeStim ((0x22 : Byte) ++ b) = .bwr b := by
  simp [decodeStim, stimKind_word, stimOperand_word]

theorem decodeStim_scan (b : Bool) : decodeStim ((0x12 : Byte) ++ boolByte b) = .scan b := by
  cases b <;> rfl

theorem decodeStim_bstop (p : Bool) : decodeStim ((0x24 : Byte) ++ boolByte p) = .bstop p := by
  cases p <;> rfl

theorem stimKind_toNat (w : StimWord) : (stimKind w).toNat = w.toNat / 256 := by
  have := w.isLt
  simp only [stimKind, BitVec.extractLsb'_toNat, Nat.shiftRight_eq_div_pow]
  omega

theorem stimOperand_toNat (w : StimWord) : (stimOperand w).toNat = w.toNat % 256 := by
  simp [stimOperand]

/-- A word R90 does not assign is read as the illegal word (30_encoding.md R97). -/
theorem decodeStim_of_unassigned {w : StimWord} (h : assignedWord w = false) :
    decodeStim w = .illegal w := by
  rw [assignedWord, ← stimKind_toNat, ← stimOperand_toNat] at h
  unfold decodeStim
  dsimp only
  split
  case h_16 => rfl
  case h_1 hk | h_2 hk | h_3 hk | h_4 hk | h_6 hk | h_9 hk => simp [hk, assignedKind] at h
  case h_5 hk | h_11 hk =>
    split_ifs with h0 h1
    · simp [hk, h0, assignedKind] at h
    · simp [hk, h1, assignedKind] at h
    · rfl
  case h_7 hk | h_8 hk | h_10 hk | h_12 hk | h_13 hk | h_14 hk | h_15 hk =>
    split_ifs with h0
    · simp [hk, h0, assignedKind] at h
    · rfl

theorem decode_cmdWord (c : Cfg) (p : CmdPair) : decode c (cmdWord p) = .ok (cmdRow c p) := by
  obtain ⟨h1, h2, h3, h4, h5, h6⟩ := frame_fields magic0 magic1 magic2 cmdLen p.cmd p.data
  simp only [cmdWord, decode, decodeCmd, h1, h2, h3, h4, h5, h6, and_self, if_true]

/-- A status frame that decodes is the frame of its own payload (30_encoding.md R82). -/
theorem statusFrame_of_decodeStatus {bs : List Byte} {i : Instr} (h : decodeStatus bs = .ok i) :
    ∃ payload, i = .statusFrame payload ∧ statusBytes payload = bs := by
  unfold decodeStatus at h
  split at h
  · next m0 m1 m2 len payload =>
    split at h
    · next hm =>
      split at h
      · next hl =>
        obtain ⟨rfl, rfl, rfl⟩ := hm
        refine ⟨payload, (Except.ok.inj h).symm, ?_⟩
        simp [statusBytes, hl.2]
      · cases h
    · cases h
  · cases h

/-- A payload byte that is a key's is that key's payload (30_encoding.md R93). -/
theorem payload_of_keyOf {c : Cfg} {b : Byte} {k : Key} (h : keyOf c b = some k) :
    (c.keyCode k).payload = b := by
  simpa using List.find?_some h

/-! ### The command frame of a row -/

/-- The command of the rows that are written as a command frame (30_encoding.md R94). -/
def commandOf (c : Cfg) : Instr → Option CmdPair
  | .cmdFrame cm d => some ⟨cm, d⟩
  | .mcStatusReq => some c.mcStatusReq
  | .mcSetVolume v => some ⟨c.mcSetVolume, v⟩
  | .fcUnmute => some c.fcUnmute
  | .fcSpotify => some c.fcSpotify
  | .fcSwitchSpotify => some c.fcSwitchSpotify
  | .fcBt => some c.fcBt
  | .fcVolUp => some c.fcVolUp
  | .fcVolDown => some c.fcVolDown
  | .fcFactoryReset => some c.fcFactoryReset
  | .fcStandby => some c.fcStandby
  | _ => none

/-- Only the rows with a command are written with a command frame, and it is that command's. -/
theorem commandOf_of_mem_encode {c : Cfg} {i : Instr} {w : FrameWord} (h : .cmd w ∈ encode c i) :
    ∃ p, commandOf c i = some p ∧ .cmd w = cmdWord p := by
  cases i with
  | cmdFrame | mcStatusReq | mcSetVolume | fcUnmute | fcSpotify | fcSwitchSpotify | fcBt | fcVolUp
  | fcVolDown | fcFactoryReset | fcStandby => exact ⟨_, rfl, List.mem_singleton.mp h⟩
  | wait t =>
    simp only [encode, waitWords, stimWord] at h
    split at h <;> split at h <;> simp at h
  | _ =>
    simp [encode, rxWords, bwriteWords, stimWord, recordWord, keyWord] at h

/-- A row that no earlier row of the same frame claims is the row of its command (entry 11). -/
theorem cmdRow_of_primary {c : Cfg} {i : Instr} {p : CmdPair} (h : commandOf c i = some p)
    (hp : isPrimary c i = true) : cmdRow c p = i := by
  cases i with
  | mcStatusReq =>
    cases h
    exact if_pos rfl
  | cmdFrame | mcSetVolume | fcUnmute | fcSpotify | fcSwitchSpotify | fcBt | fcVolUp
  | fcVolDown | fcFactoryReset | fcStandby =>
    cases h
    exact of_decide_eq_true hp
  | _ => cases h

/-- The frame of a primary command row decodes to that row. -/
theorem decode_cmd_of_primary {c : Cfg} {i : Instr} {w : FrameWord} (h : .cmd w ∈ encode c i)
    (hp : isPrimary c i = true) : decode c (.cmd w) = .ok i := by
  obtain ⟨p, hi, hw⟩ := commandOf_of_mem_encode h
  rw [hw, decode_cmdWord, cmdRow_of_primary hi hp]

end Sys2Proof

namespace Sys2Proof.Machine

/-! ### Runs of stimulus words -/

/-- Running the stimulus words `ws` one after another from `s` leaves `t`. -/
def StimRun (ws : List StimWord) (s t : State) : Prop := runInstrs (ws.map decodeStim) s = some t

theorem runInstrs_cons {i : Instr} {s t : State} (h : exec i s = .next t) (is : List Instr) :
    runInstrs (i :: is) s = runInstrs is t := by
  rw [runInstrs, h]

theorem runInstrs_append (is js : List Instr) (s : State) :
    runInstrs (is ++ js) s = (runInstrs is s).bind (runInstrs js) := by
  induction is generalizing s with
  | nil => rfl
  | cons i is ih =>
    simp only [List.cons_append, runInstrs]
    split
    · exact ih _
    · rfl
    · rfl

theorem StimRun.nil (s : State) : StimRun [] s s := rfl

theorem StimRun.word {w : StimWord} {i : Instr} {s t : State} (hw : decodeStim w = i)
    (h : exec i s = .next t) : StimRun [w] s t := by
  subst hw
  exact runInstrs_cons h []

theorem StimRun.append {ws vs : List StimWord} {s t u : State} (h : StimRun ws s t)
    (k : StimRun vs t u) : StimRun (ws ++ vs) s u := by
  unfold StimRun at *
  rw [List.map_append, runInstrs_append, h, Option.bind_some, k]

theorem StimRun.cons {w : StimWord} {ws : List StimWord} {s t u : State} (h : StimRun [w] s t)
    (k : StimRun ws t u) : StimRun (w :: ws) s u := h.append k

theorem StimRun.unique {ws : List StimWord} {s t u : State} (h : StimRun ws s t)
    (k : StimRun ws s u) : t = u := Option.some.inj (h.symm.trans k)

/-! ### What a stimulus word leaves of the inputs in store -/

/-- A stimulus word is one that may be run at an interrupt point, POLL, RESET or an illegal word
(20_memory.md R71). -/
theorem decodeStim_cases (w : StimWord) :
    (∃ j, ∀ s, exec (decodeStim w) s = .next (runIpStim j s)) ∨
    decodeStim w = .poll ∨ decodeStim w = .reset ∨ decodeStim w = .illegal w := by
  unfold decodeStim
  dsimp only
  split
  case h_1 => exact .inl ⟨.tick _, fun _ => rfl⟩
  case h_2 => exact .inl ⟨.tick100 _, fun _ => rfl⟩
  case h_3 => exact .inl ⟨.rxb _, fun _ => rfl⟩
  case h_4 => exact .inl ⟨.post _, fun _ => rfl⟩
  case h_5 =>
    split_ifs
    · exact .inl ⟨.scan false, fun _ => rfl⟩
    · exact .inl ⟨.scan true, fun _ => rfl⟩
    · simp
  case h_6 => exact .inl ⟨.txdrop _, fun _ => rfl⟩
  case h_7 =>
    split_ifs
    · exact .inl ⟨.baddrw, fun _ => rfl⟩
    · simp
  case h_8 =>
    split_ifs
    · exact .inl ⟨.baddrr, fun _ => rfl⟩
    · simp
  case h_9 => exact .inl ⟨.bwr _, fun _ => rfl⟩
  case h_10 =>
    split_ifs
    · exact .inl ⟨.brd, fun _ => rfl⟩
    · simp
  case h_11 =>
    split_ifs
    · exact .inl ⟨.bstop false, fun _ => rfl⟩
    · exact .inl ⟨.bstop true, fun _ => rfl⟩
    · simp
  case h_12 =>
    split_ifs
    · exact .inl ⟨.baf, fun _ => rfl⟩
    · simp
  case h_13 =>
    split_ifs
    · exact .inl ⟨.berr, fun _ => rfl⟩
    · simp
  case h_14 => split_ifs <;> simp
  case h_15 => split_ifs <;> simp
  case h_16 => simp

/-- The pending inputs and the frame set to be sent stay as they are. -/
structure KeepsStore (s t : State) : Prop where
  pending : t.input.pending = s.input.pending
  issue : t.input.issue = s.input.issue

theorem KeepsStore.refl (s : State) : KeepsStore s s := ⟨rfl, rfl⟩

theorem KeepsStore.trans {s t u : State} (h : KeepsStore s t) (k : KeepsStore t u) :
    KeepsStore s u := ⟨k.pending.trans h.pending, k.issue.trans h.issue⟩

theorem KeepsStore.of_input {s t : State} (h : t.input = s.input) : KeepsStore s t :=
  ⟨congrArg (·.pending) h, congrArg (·.issue) h⟩

/-- A stimulus word answers a next state, and sets no input and no frame. -/
theorem exec_decodeStim (w : StimWord) (s : State) :
    ∃ t, exec (decodeStim w) s = .next t ∧ KeepsStore s t := by
  obtain ⟨j, hj⟩ | hw | hw | hw := decodeStim_cases w
  · exact ⟨_, hj s, .of_input (runIpStim_sched j s)⟩
  · exact ⟨pollOnce s, by rw [hw]; rfl, (pollOnce_safe s).pending, (pollOnce_safe s).issue⟩
  · exact ⟨resetBlock s, by rw [hw]; rfl, .of_input rfl⟩
  · exact ⟨markRefused s, by rw [hw]; rfl, .of_input rfl⟩

/-- A run of stimulus words sets no input and no frame. -/
theorem StimRun.keepsStore {ws : List StimWord} {s t : State} (h : StimRun ws s t) :
    KeepsStore s t := by
  induction ws generalizing s with
  | nil => cases h; exact .refl _
  | cons w ws ih =>
    obtain ⟨u, hu, hk⟩ := exec_decodeStim w s
    exact hk.trans (ih ((runInstrs_cons hu _).symm.trans h))

/-! ### The stimulus words a transaction stands for -/

/-- A byte arriving on SER_IN, as a stimulus word (30_encoding.md R90). -/
def rxStimulus (b : Byte) : StimWord := (0x10 : Byte) ++ b

/-- The bus transaction of a write record, as stimulus words (30_encoding.md R87, R92). -/
def recordStimuli (i lo hi : Byte) : List StimWord :=
  [(0x20 : Byte) ++ (0 : Byte), (0x22 : Byte) ++ i, (0x22 : Byte) ++ lo, (0x22 : Byte) ++ hi]

/-- A word R90 does not assign; what an input that is not taken comes to (entry 15). -/
def unassignedStimulus : StimWord := 0

/-- The stimulus words a presented transaction stands for (entries 13, 15). -/
def wireStimuli : Wire → List StimWord
  | .stim w => [w]
  | .record w => recordStimuli (w.extractLsb' 16 8) (w.extractLsb' 8 8) (w.extractLsb' 0 8)
  | .status bs => bs.map rxStimulus
  | .cmd _ => [unassignedStimulus]
  | .unknown _ _ => [unassignedStimulus]

/-- The stimulus words of a run over presented transactions. -/
def wiresStimuli (xs : List Wire) : List StimWord := xs.flatMap wireStimuli

theorem wiresStimuli_singleton (x : Wire) : wiresStimuli [x] = wireStimuli x :=
  List.flatMap_singleton _ _

theorem wiresStimuli_append (xs ys : List Wire) :
    wiresStimuli (xs ++ ys) = wiresStimuli xs ++ wiresStimuli ys := List.flatMap_append

theorem wireStimuli_recordWord (i lo hi : Byte) :
    wireStimuli (recordWord i lo hi) = recordStimuli i lo hi := by
  rw [recordWord, wireStimuli, record_index, record_lo, record_hi]

theorem wiresStimuli_rxWords (bs : List Byte) : wiresStimuli (rxWords bs) = bs.map rxStimulus := by
  rw [wiresStimuli, rxWords, List.flatMap_map, List.map_eq_flatMap]
  rfl

theorem unassigned_run (s : State) : StimRun [unassignedStimulus] s (markRefused s) := .word rfl rfl

theorem rx_run (bs : List Byte) (s : State) : StimRun (bs.map rxStimulus) s (receiveBytes bs s) := by
  induction bs generalizing s with
  | nil => exact .nil s
  | cons b bs ih => exact .cons (.word (decodeStim_rxb b) rfl) (ih _)

theorem record_run (i lo hi : Byte) (s : State) :
    StimRun (recordStimuli i lo hi) s (busRecord i lo hi s) :=
  .cons (.word rfl rfl) (.cons (.word (decodeStim_bwr i) rfl)
    (.cons (.word (decodeStim_bwr lo) rfl) (.word (decodeStim_bwr hi) rfl)))

/-! ### A presented transaction is its stimulus words -/

/-- The POST row of a code is POST of that code (30_encoding.md R96). -/
theorem exec_postRow (e : Byte) (s : State) : exec (postRow e) s = exec (.post e) s := by
  unfold postRow
  split
  case h_9 => rfl
  all_goals
    next h =>
      have he : e = BitVec.ofNat 8 e.toNat := by simp
      rw [h] at he
      subst he
      rfl

/-- The specific row of a stimulus word does what the word does. -/
theorem exec_stimRow (w : StimWord) (s : State) : exec (stimRow w) s = exec (decodeStim w) s := by
  unfold stimRow
  split
  · next e h => rw [exec_postRow, h]
  · rfl

/-- Whatever row a write record is, it is the whole bus transaction (entry 13). -/
theorem exec_recordRow (i lo hi : Byte) (s : State) :
    exec (recordRow s.cfg i lo hi) s = .next (busRecord i lo hi s) := by
  unfold recordRow
  split_ifs with h1 h2 h3
  · subst h1
    split
    · next k hk =>
      rw [← payload_of_keyOf hk]
      cases k <;> rfl
    · rfl
  · rw [h2]; rfl
  · rw [h3]; rfl
  · rfl
  · rfl
  · rfl

theorem stepInput_status (bs : List Byte) (s : State) :
    stepInput (.status bs) s = .next (receiveBytes bs s) := by
  cases h : decodeInput s.cfg (.status bs) with
  | error e => exact stepInput_of_error h
  | ok i =>
    obtain ⟨payload, rfl, rfl⟩ := statusFrame_of_decodeStatus h
    exact stepInput_of_ok h

/-- A step that takes a transaction is the run of its stimulus words. -/
theorem stepInput_run (x : Wire) (s : State) :
    ∃ t, stepInput x s = .next t ∧ StimRun (wireStimuli x) s t := by
  cases x with
  | stim w =>
    have h : stepInput (.stim w) s = exec (decodeStim w) s := exec_stimRow w s
    obtain ⟨t, ht, _⟩ := exec_decodeStim w s
    exact ⟨t, h.trans ht, .word rfl ht⟩
  | record w => exact ⟨_, exec_recordRow _ _ _ s, record_run _ _ _ s⟩
  | status bs => exact ⟨_, stepInput_status bs s, rx_run bs s⟩
  | cmd w => exact ⟨_, rfl, unassigned_run s⟩
  | unknown n w => exact ⟨_, rfl, unassigned_run s⟩

/-! ### Runs over presented transactions -/

/-- Nothing is pending and no frame is set to be sent. -/
def State.storeEmpty (s : State) : Prop := s.input.pending = [] ∧ s.input.issue = none

theorem KeepsStore.storeEmpty {s t : State} (h : KeepsStore s t) (hs : s.storeEmpty) :
    t.storeEmpty := by
  obtain ⟨hp, hi⟩ := hs
  exact ⟨h.pending.trans hp, h.issue.trans hi⟩

/-- Emptying a store that is empty leaves the state as it is. -/
theorem takePending_takeIssue {s : State} (h : s.storeEmpty) : takePending [] (takeIssue s) = s := by
  obtain ⟨hp, hi⟩ := h
  refine State.ext_groups rfl rfl rfl rfl rfl rfl rfl rfl rfl rfl rfl ?_ rfl rfl
  show { s.input with pending := [], issue := none } = s.input
  rw [← hp, ← hi]

theorem takePending_self {s : State} {xs : List Wire} (h : s.input.pending = xs) :
    takePending xs s = s := by
  subst h
  rfl

/-- From an empty store, a run over transactions of any kind is the run of their stimulus words. -/
theorem runWires_run (xs : List Wire) {s : State} (h : s.storeEmpty) :
    ∃ t, runWires xs s = some t ∧ StimRun (wiresStimuli xs) s t := by
  induction xs generalizing s with
  | nil => exact ⟨s, rfl, .nil s⟩
  | cons x xs ih =>
    obtain ⟨t, ht, hr⟩ := stepInput_run x s
    obtain ⟨u, hu, hru⟩ := ih (hr.keepsStore.storeEmpty h)
    refine ⟨u, ?_, hr.append hru⟩
    rw [runWires, step_presentInput, takePending_takeIssue h, ht]
    exact hu

/-- With no frame set to be sent, a step is the run of the stimulus words of the oldest input. -/
theorem step_run {s : State} (h : s.input.issue = none) :
    ∃ t, step s = .next t ∧
      StimRun (wiresStimuli (s.input.pending.take 1)) (takePending s.input.pending.tail s) t := by
  cases hp : s.input.pending with
  | nil => exact ⟨s, step_of_none h hp, by rw [List.tail_nil, takePending_self hp]; exact .nil s⟩
  | cons x rest =>
    obtain ⟨t, ht, hr⟩ := stepInput_run x (takePending rest s)
    refine ⟨t, (step_of_pending h hp).trans ht, ?_⟩
    rw [List.take_succ_cons, List.take_zero, wiresStimuli_singleton]
    exact hr

/-! ### An instruction's own words run it -/

theorem recordWord_run (i lo hi : Byte) (s : State) :
    StimRun (wiresStimuli [recordWord i lo hi]) s (busRecord i lo hi s) := by
  rw [wiresStimuli_singleton, wireStimuli_recordWord]
  exact record_run i lo hi s

theorem rxWords_run (bs : List Byte) (s : State) :
    StimRun (wiresStimuli (rxWords bs)) s (receiveBytes bs s) := by
  rw [wiresStimuli_rxWords]
  exact rx_run bs s

theorem reads_run (n : Nat) (s : State) :
    StimRun (wiresStimuli (List.replicate n (stimWord 0x23 0))) s (busReads n s) := by
  induction n generalizing s with
  | zero => exact .nil s
  | succ n ih => exact .cons (.word rfl rfl) (ih (busRead s))

theorem wait_run (t : Nat) (s : State) :
    StimRun (wiresStimuli (waitWords t)) s (waitRest t (waitHundreds t s)) := by
  rw [waitWords, wiresStimuli_append]
  refine StimRun.append (t := waitHundreds t s) ?_ ?_
  · unfold waitHundreds
    split
    · exact .word (decodeStim_tick100 _) rfl
    · exact .nil s
  · unfold waitRest
    split
    · exact .word (decodeStim_tick _) rfl
    · exact .nil _

/-- BREAD: the address, the reads, the acknowledge failure and the stop (30_encoding.md R92). -/
theorem bread_run (c : Cfg) (n : Nat) (s : State) :
    StimRun (wiresStimuli (encode c (.bread n))) s
      (busStop false (busAckFail (busReads n (busAddrR s)))) := by
  rw [encode, wiresStimuli_append, wiresStimuli_append]
  exact .append (.append (.word rfl rfl) (reads_run n _)) (.cons (.word rfl rfl) (.word rfl rfl))

/-- What an instruction does, its own words do, run as stimuli. -/
theorem exec_run_encode (i : Instr) (s : State) (hw : i.wf = true)
    (hc : ∀ w, .cmd w ∉ encode s.cfg i) :
    ∃ t, exec i s = .next t ∧ StimRun (wiresStimuli (encode s.cfg i)) s t := by
  cases i with
  | tick n => exact ⟨_, rfl, .word (decodeStim_tick n) rfl⟩
  | tick100 n => exact ⟨_, rfl, .word (decodeStim_tick100 n) rfl⟩
  | rxb b => exact ⟨_, rfl, .word (decodeStim_rxb b) rfl⟩
  | scan b => exact ⟨_, rfl, .word (decodeStim_scan b) rfl⟩
  | txdrop n => exact ⟨_, rfl, .word (decodeStim_txdrop n) rfl⟩
  | bwr b => exact ⟨_, rfl, .word (decodeStim_bwr b) rfl⟩
  | bstop p => exact ⟨_, rfl, .word (decodeStim_bstop p) rfl⟩
  | baddrw | baddrr | brd | baf | berr | poll | reset => exact ⟨_, rfl, .word rfl rfl⟩
  | illegal w =>
    have hu : assignedWord w = false := by simpa [Instr.wf] using hw
    exact ⟨_, rfl, .word (decodeStim_of_unassigned hu) rfl⟩
  | post | postNone | postVolUp | postVolDown | postModeToggle | postSetModeFromModule | postPower
  | postFactoryReset | postModuleVolumeSet | postOther =>
    exact ⟨_, rfl, .word (decodeStim_post _) rfl⟩
  | rxseq bs => exact ⟨_, rfl, rxWords_run bs s⟩
  | rxstatus d0 d1 d2 d3 => exact ⟨_, rfl, rxWords_run _ s⟩
  | bwrite i lo hi => exact ⟨_, rfl, record_run i lo hi s⟩
  | bsetidx i => exact ⟨_, rfl, .cons (.word rfl rfl) (.word (decodeStim_bwr i) rfl)⟩
  | bread n => exact ⟨_, rfl, bread_run _ n s⟩
  | wait t => exact ⟨_, rfl, wait_run t s⟩
  | nop => exact ⟨_, rfl, .nil s⟩
  | statusFrame payload =>
    refine ⟨_, rfl, ?_⟩
    rw [encode, wiresStimuli_singleton]
    exact rx_run _ s
  | writeRecord | recReject | recRawStore | recOob | recKeyCmd | recAuxCtrl | recVolumeSet
  | keyMute | keyUnmute | keySpotifyMode | keyBtMode | keyVolUp | keyVolDown | keyPlayPause
  | keyNext | keyPrev | keyResetNetwork | keyFactoryReset => exact ⟨_, rfl, recordWord_run _ _ _ s⟩
  | cmdFrame | mcStatusReq | mcSetVolume | fcUnmute | fcSpotify | fcSwitchSpotify | fcBt | fcVolUp
  | fcVolDown | fcFactoryReset | fcStandby => exact absurd (List.mem_singleton_self _) (hc _)

/-- An instruction's own words, presented one by one, leave what the instruction leaves. -/
theorem runWires_encode (i : Instr) {s : State} (hw : i.wf = true) (hs : s.storeEmpty)
    (hc : ∀ w, .cmd w ∉ encode s.cfg i) :
    ∃ t, exec i s = .next t ∧ runWires (encode s.cfg i) s = some t := by
  obtain ⟨t, ht, hr⟩ := exec_run_encode i s hw hc
  obtain ⟨u, hu, hru⟩ := runWires_run (encode s.cfg i) hs
  exact ⟨t, ht, hu.trans (congrArg some (hru.unique hr))⟩

/-! ### A command frame sent by itself -/

/-- A command row answers a next state: what is sent is sent. -/
theorem exec_of_commandOf {c : Cfg} {i : Instr} {p : CmdPair} (h : commandOf c i = some p)
    (s : State) : ∃ t, exec i s = .next t := by
  cases i with
  | cmdFrame | mcStatusReq | mcSetVolume | fcUnmute | fcSpotify | fcSwitchSpotify | fcBt | fcVolUp
  | fcVolDown | fcFactoryReset | fcStandby => exact ⟨_, rfl⟩
  | _ => cases h

/-- A primary command row's frame, set to be sent by itself, runs the row (entry 14). -/
theorem step_issue_of_primary {i : Instr} {s : State} {w : FrameWord} (hi : s.input.issue = none)
    (hw : .cmd w ∈ encode s.cfg i) (hp : isPrimary s.cfg i = true) :
    step { s with input := { s.input with issue := some w } } = exec i s := by
  have hs : takeIssue { s with input := { s.input with issue := some w } } = s := by
    refine State.ext_groups rfl rfl rfl rfl rfl rfl rfl rfl rfl rfl rfl ?_ rfl rfl
    show { s.input with issue := none } = s.input
    rw [← hi]
  rw [step_of_issue rfl, hs, stepIssue_of_ok (decode_cmd_of_primary hw hp)]

/-- Settles O60: own words by `runWires_encode`, a frame by `step_issue_of_primary`, a step by
`step_run`, a run by `runWires_run`. -/
theorem ownWordsRunTheInstruction : Obligations.OwnWordsRunTheInstruction := by
  unfold Obligations.OwnWordsRunTheInstruction
  refine ⟨fun i s hw hp hi hc => runWires_encode i hw ⟨hp, hi⟩ hc, fun i s w _ hi hw hp => ?_,
    fun s hi => ?_, fun xs s hp hi => ?_⟩
  · obtain ⟨p, hc, _⟩ := commandOf_of_mem_encode hw
    obtain ⟨t, ht⟩ := exec_of_commandOf hc s
    exact ⟨t, ht, (step_issue_of_primary hi hw hp).trans ht⟩
  · obtain ⟨t, ht, hr⟩ := step_run hi
    exact ⟨_, t, ht, hr, fun h => by rw [h]; rfl, hr.keepsStore.issue.trans hi⟩
  · obtain ⟨t, ht, hr⟩ := runWires_run xs ⟨hp, hi⟩
    exact ⟨_, t, ht, hr, hr.keepsStore.storeEmpty ⟨hp, hi⟩⟩

end Sys2Proof.Machine
end

section
/-! PROOF. What one instruction can do to the state, said once (`ExecEffect`), and from it: the sticky
marks and the constant configuration (10_state.md R46, 20_memory.md R76), and the invariant of the whole
state as a step lemma (10_state.md R22 to R47, 41_register_bus.md R172, R182, 42_mode_fsm.md R215 to R251).
At the end, what the bus agent leaves alone (10_state.md R50). -/

namespace Sys2Proof.Machine

/-! ### What one instruction can do -/

/-- What the poll agent's operations keep, the variables of a mode change as they are. -/
structure CoreSafe (s t : State) : Prop extends PollSafe s t where
  core : t.core = s.core

/-- What an interrupt point keeps leaves the variables of a mode change alone. -/
theorem IpSafe.toCore {s t : State} (h : IpSafe s t) : CoreSafe s t := ⟨h.toPoll, h.core⟩

/-- What an instruction can make of a state: something that touches no variable of a mode change, a
POLL, the reset values, or the refusal mark. -/
inductive ExecEffect (i : Instr) (s : State) : State → Prop
  | safe {t : State} : CoreSafe s t → ExecEffect i s t
  | poll : ExecEffect i s (pollOnce s)
  | reset : i = .reset → ExecEffect i s (resetBlock s)
  | mark : ExecEffect i s (markRefused s)

theorem ExecEffect.ip {i : Instr} {s t : State} (h : IpSafe s t) : ExecEffect i s t := .safe h.toCore

@[simp] theorem volumeSet_bus (v : BitVec 16) (s : State) : (volumeSet v s).bus = s.bus := by
  unfold volumeSet
  split
  · rfl
  · rw [sendFrameBus_eq, afterOffer_bus]

theorem volumeSet_ipSafe (v : BitVec 16) (s : State) : IpSafe s (volumeSet v s) :=
  (volumeSet_safe v s).toIp fun h => by rwa [volumeSet_bus]

theorem busRecord_ipSafe (i lo hi : Byte) (s : State) : IpSafe s (busRecord i lo hi s) :=
  (busRecord_safe i lo hi s).toIp fun _ => busRecord_ok i lo hi s

theorem busReads_ipSafe (n : Nat) (s : State) : IpSafe s (busReads n s) := by
  induction n generalizing s with
  | zero => exact .refl s
  | succ n ih => exact (runIpStim_safe .brd s).trans (ih _)

theorem bread_ipSafe (n : Nat) (s : State) :
    IpSafe s (busStop false (busAckFail (busReads n (busAddrR s)))) :=
  (((runIpStim_safe .baddrr s).trans (busReads_ipSafe n _)).trans (runIpStim_safe .baf _)).trans
    (runIpStim_safe (.bstop false) _)

theorem wait_ipSafe (t : Nat) (s : State) : IpSafe s (waitRest t (waitHundreds t s)) := by
  have hundreds : IpSafe s (waitHundreds t s) := by
    unfold waitHundreds
    split
    · exact advance_safe _ s
    · exact .refl s
  refine hundreds.trans ?_
  unfold waitRest
  split
  · exact advance_safe _ _
  · exact .refl _

/-- Every instruction answers a next state, and it is one of `ExecEffect`'s. -/
theorem exec_effect (i : Instr) (s : State) : ∃ t, exec i s = .next t ∧ ExecEffect i s t := by
  cases i with
  | tick | tick100 => exact ⟨_, rfl, .ip (advance_safe _ s)⟩
  | rxb b => exact ⟨_, rfl, .ip (receiveByte_safe b s)⟩
  | post | postNone | postVolUp | postVolDown | postModeToggle | postSetModeFromModule | postPower
  | postFactoryReset | postModuleVolumeSet | postOther => exact ⟨_, rfl, .ip (postEvent_safe _ s)⟩
  | scan b => exact ⟨_, rfl, .ip (setScan_safe b s)⟩
  | txdrop n => exact ⟨_, rfl, .ip (runIpStim_safe (.txdrop n) s)⟩
  | baddrw => exact ⟨_, rfl, .ip (runIpStim_safe .baddrw s)⟩
  | baddrr => exact ⟨_, rfl, .ip (runIpStim_safe .baddrr s)⟩
  | bwr b => exact ⟨_, rfl, .ip (runIpStim_safe (.bwr b) s)⟩
  | brd => exact ⟨_, rfl, .ip (runIpStim_safe .brd s)⟩
  | bstop p => exact ⟨_, rfl, .ip (runIpStim_safe (.bstop p) s)⟩
  | baf => exact ⟨_, rfl, .ip (runIpStim_safe .baf s)⟩
  | berr => exact ⟨_, rfl, .ip (runIpStim_safe .berr s)⟩
  | poll => exact ⟨_, rfl, .poll⟩
  | reset => exact ⟨_, rfl, .reset rfl⟩
  | illegal => exact ⟨_, rfl, .mark⟩
  | rxseq | rxstatus | statusFrame => exact ⟨_, rfl, .ip (receiveBytes_safe _ s)⟩
  | bsetidx i =>
    exact ⟨_, rfl, .ip ((runIpStim_safe .baddrw s).trans (runIpStim_safe (.bwr i) _))⟩
  | bread n => exact ⟨_, rfl, .ip (bread_ipSafe n s)⟩
  | wait t => exact ⟨_, rfl, .ip (wait_ipSafe t s)⟩
  | nop => exact ⟨_, rfl, .ip (.refl s)⟩
  | bwrite | writeRecord | recReject | recRawStore | recOob | recKeyCmd | recAuxCtrl | recVolumeSet
  | keyMute | keyUnmute | keySpotifyMode | keyBtMode | keyVolUp | keyVolDown | keyPlayPause
  | keyNext | keyPrev | keyResetNetwork | keyFactoryReset =>
    exact ⟨_, rfl, .ip (busRecord_ipSafe _ _ _ s)⟩
  | cmdFrame | fcUnmute => exact ⟨_, rfl, .ip (sendFramePoll_safe _ s)⟩
  | mcStatusReq =>
    exact ⟨_, rfl, .safe ⟨issueStatusReq_safe s, by rw [issueStatusReq, sendFramePoll_core]; rfl⟩⟩
  | mcSetVolume => exact ⟨_, rfl, .ip (volumeSet_ipSafe _ s)⟩
  | fcSpotify => exact ⟨_, rfl, .safe ⟨issueSpotify_safe s, issueSpotify_core s⟩⟩
  | fcSwitchSpotify => exact ⟨_, rfl, .safe ⟨issueSwitchSpotify_safe s, issueSwitchSpotify_core s⟩⟩
  | fcBt => exact ⟨_, rfl, .safe ⟨issueBt_safe s, issueBt_core s⟩⟩
  | fcVolUp => exact ⟨_, rfl, .safe ⟨issueVolUp_safe s, issueVolUp_core s⟩⟩
  | fcVolDown => exact ⟨_, rfl, .safe ⟨issueVolDown_safe s, issueVolDown_core s⟩⟩
  | fcFactoryReset => exact ⟨_, rfl, .safe ⟨issueFactoryReset_safe s, issueFactoryReset_core s⟩⟩
  | fcStandby => exact ⟨_, rfl, .safe ⟨issueStandby_safe s, issueStandby_core s⟩⟩

/-- The effect of an instruction that is known to answer `t`. -/
theorem ExecEffect.of_exec {i : Instr} {s t : State} (h : exec i s = .next t) : ExecEffect i s t := by
  obtain ⟨u, hu, he⟩ := exec_effect i s
  rwa [Host.Outcome.next.inj (h.symm.trans hu)]

/-! ### The sticky marks and the configuration -/

theorem ExecEffect.cfg {i : Instr} {s t : State} (h : ExecEffect i s t) : t.cfg = s.cfg := by
  cases h with
  | safe h => exact h.cfg
  | poll => exact (pollOnce_safe s).cfg
  | reset => rfl
  | mark => rfl

theorem ExecEffect.marks_stick {i : Instr} {s t : State} (h : ExecEffect i s t) (hi : i ≠ .reset) :
    (s.faultRegfileOob = true → t.faultRegfileOob = true) ∧ (s.refused = true → t.refused = true) := by
  cases h with
  | safe h => exact ⟨h.sticky, h.refused.trans⟩
  | poll => exact ⟨(pollOnce_safe s).sticky, (pollOnce_safe s).refused.trans⟩
  | reset h => exact absurd h hi
  | mark => exact ⟨id, fun _ => rfl⟩

/-- Settles O51, from what one instruction can do. -/
theorem marksStickAndConfigurationStays : Obligations.MarksStickAndConfigurationStays := by
  unfold Obligations.MarksStickAndConfigurationStays
  intro i s
  obtain ⟨t, ht, he⟩ := exec_effect i s
  exact ⟨t, ht, he.cfg, he.marks_stick⟩

/-! ### The invariant of the mode machine -/

/-- The part of the invariant that speaks of a mode change: only the current mode's task is not Idle,
the Idle mode's never, NetworkConfig alone pauses, and the pending mode is the current one but at Stop
(42_mode_fsm.md R215 to R219, R251). -/
structure ModeOk (c : ModeCore) : Prop where
  tasksIdle : ∀ m, m ≠ c.mode → c.tasks.get m = .idle
  idleInert : c.tasks.get .idle = .idle
  pauseOnly : ∀ m, c.tasks.get m = .pause → m = .networkConfig
  prevMode : c.prev = .bluetoothA2DP ∨ c.prev = .spotifyConnect ∨ c.prev = .networkConfig
  nextMode : c.tasks.get c.mode ≠ .stop → c.next = c.mode

/-- A sub-state of the current mode set, with a pending mode that fits it. -/
theorem ModeOk.setTask {c : ModeCore} (h : ModeOk c) {v : TaskState} {n : Mode} (hm : c.mode ≠ .idle)
    (hp : v = .pause → c.mode = .networkConfig) (hn : v ≠ .stop → n = c.mode) :
    ModeOk { c with next := n, tasks := c.tasks.set c.mode v } := by
  refine ⟨fun m hne => ?_, ?_, fun m => ?_, h.prevMode, fun hv => hn ?_⟩
  · rw [Tasks.get_set, if_neg hne]
    exact h.tasksIdle m hne
  · rw [Tasks.get_set, if_neg (Ne.symm hm)]
    exact h.idleInert
  · rw [Tasks.get_set]
    split
    · next e => exact fun hv => e.trans (hp hv)
    · exact h.pauseOnly m
  · simpa using hv

/-- A stop of the current mode, whatever mode is to follow. -/
theorem ModeOk.stop {c : ModeCore} (h : ModeOk c) (n : Mode) (hm : c.mode ≠ .idle) :
    ModeOk { c with next := n, tasks := c.tasks.set c.mode .stop } :=
  h.setTask hm (fun e => by cases e) (fun e => absurd rfl e)

theorem ModeOk.request {c : ModeCore} (h : ModeOk c) (t : Mode) : ModeOk (c.request t) := by
  unfold ModeCore.request
  split
  · next ha =>
    refine h.stop t fun hm => ?_
    rw [hm, h.idleInert] at ha
    cases ha
  · exact h

/-- The exits: the mode left becomes Idle, the pending mode is entered. -/
theorem ModeOk.leave {c : ModeCore} (h : ModeOk c) (n : Mode) (f : Bool) :
    ModeOk { c with next := n, factory := f }.leave := by
  have allIdle : ∀ m, (c.tasks.set c.mode .idle).get m = .idle := by
    intro m
    rw [Tasks.get_set]
    split
    · rfl
    · next hne => exact h.tasksIdle m hne
  refine ⟨fun m _ => allIdle m, allIdle _, fun m hm => ?_, h.prevMode, fun _ => rfl⟩
  cases (allIdle m).symm.trans hm

/-- The factory flag is no part of the mode machine's invariant. -/
theorem ModeOk.setFactory {c : ModeCore} (h : ModeOk c) (f : Bool) : ModeOk { c with factory := f } :=
  ⟨h.tasksIdle, h.idleInert, h.pauseOnly, h.prevMode, h.nextMode⟩

/-- A user mode saved as the mode Standby returns to (R224, R225). -/
theorem ModeOk.savePrev {c : ModeCore} (h : ModeOk c)
    (hm : c.mode ∈ [.bluetoothA2DP, .spotifyConnect, .networkConfig]) :
    ModeOk { c with prev := c.mode } :=
  ⟨h.tasksIdle, h.idleInert, h.pauseOnly, by simpa using hm, h.nextMode⟩

theorem ModeOk.move {T : Mode → Prop} {c d : ModeCore} (h : ModeOk c) (k : Move T c d) : ModeOk d := by
  cases k with
  | setTask v _ hp hi ht => exact h.setTask hi hp fun _ => h.nextMode ht
  | standbyOff hm _ => exact h.stop c.next (by rw [hm]; decide)
  | request t _ => exact h.request t
  | requestSave t _ hm => exact (h.savePrev hm).request t
  | stop t _ _ hi => exact h.stop t hi
  | leave => exact h.leave c.next c.factory
  | leaveFactory => exact h.leave c.next false
  | leaveStandby t => exact h.leave t c.factory

theorem ModeOk.moves {T : Mode → Prop} {c d : ModeCore} (h : ModeOk c) (k : Moves T c d) :
    ModeOk d := by
  induction k with
  | refl => exact h
  | tail _ k ih => exact ih.move k

/-- With no condition on the modes a handler may choose, every configuration meets it. -/
theorem Targets.any (c : Cfg) : Targets (fun _ => True) c :=
  ⟨fun _ _ _ => trivial, trivial, trivial, trivial, trivial, trivial⟩

theorem ModeOk.tail {s : State} (h : ModeOk s.core) (m0 : Mode) (ev : Byte) :
    ModeOk (tail m0 ev s).core := by
  rcases tail_core m0 ev s with e | ⟨-, -, -, e⟩
  · rwa [e]
  · rw [e]
    exact (h.setFactory true).request .factoryReset

theorem ModeOk.dispatch {s : State} (h : ModeOk s.core) : ModeOk (dispatch s).core := by
  rw [Machine.dispatch, clearEvent_core]
  exact (h.moves (modeFunction_moves _ s.fsm.event (Targets.any s.cfg) rfl)).tail _ _

/-- A POLL keeps the mode machine's invariant, whatever is run at its interrupt points. -/
theorem ModeOk.pollOnce {s : State} (h : ModeOk s.core) : ModeOk (pollOnce s).core :=
  ModeOk.dispatch (by rwa [interruptPoint_core, linkStep_core])

/-! ### The invariant of the whole state -/

/-- The invariant by its parts: the register file, the ticks, the FIFO, the synchronizer, the bus slave,
the mode machine. -/
theorem inv_iff (s : State) : Inv s ↔
    s.mem.wf = true ∧ TicksOk s ∧ s.sync.rxFifo.length ≤ s.cfg.rxFifoDepth ∧ SyncOk s ∧
      BusOk s.bus ∧ ModeOk s.core := by
  constructor
  · intro h
    exact ⟨h.memWf, ⟨h.nowLt, h.reqLt, h.echoLt, h.blockLt, h.debounceLt, h.bootLt, h.graceLt⟩, h.fifo,
      ⟨h.lenLe, h.countLe, h.bufCur⟩, ⟨h.busState, h.rxCount⟩,
      ⟨h.tasksIdle, h.idleInert, h.pauseOnly, h.prevMode, h.nextMode⟩⟩
  · rintro ⟨memWf, ticks, fifo, sync, ⟨busState, rxCount⟩, mode⟩
    exact { ticks, sync, mode with memWf, fifo, busState, rxCount }

/-- What the poll agent's operations keep, and a mode machine that is right, make the invariant. -/
theorem Inv.of_pollSafe {s t : State} (h : Inv s) (k : PollSafe s t) (hc : ModeOk t.core) : Inv t := by
  obtain ⟨memWf, ticks, fifo, sync, bus, -⟩ := (inv_iff s).mp h
  exact (inv_iff t).mpr
    ⟨k.memWf memWf, k.ticks ticks, k.fifo fifo, k.syncOk sync, k.busOk bus, hc⟩

theorem Inv.modeOk {s : State} (h : Inv s) : ModeOk s.core :=
  ⟨h.tasksIdle, h.idleInert, h.pauseOnly, h.prevMode, h.nextMode⟩

theorem Inv.coreSafe {s t : State} (h : Inv s) (k : CoreSafe s t) : Inv t :=
  h.of_pollSafe k.toPollSafe (k.core ▸ h.modeOk)

/-- The invariant does not speak of the inputs in store. -/
theorem Inv.withInput {s : State} (h : Inv s) (v : Input) : Inv (s.withInput v) := { h with }

/-- The invariant does not speak of the refusal mark. -/
theorem Inv.withRefused {s : State} (h : Inv s) (v : Bool) : Inv (s.withRefused v) := { h with }

/-- RESET gives the invariant, from every state and under every configuration
(70_reset_and_hazards.md R301). -/
theorem resetBlock_inv (s : State) : Inv (resetBlock s) := by
  have pos : 0 < 2 ^ s.cfg.tickBits := Nat.pow_pos (by decide)
  have tasks : ∀ m, Tasks.allIdle.get m = .idle := fun m => by cases m <;> rfl
  refine (inv_iff _).mpr ⟨resetMemory_wf s.cfg, ⟨pos, pos, pos, pos, pos, pos, pos⟩, Nat.zero_le _,
    ⟨Nat.zero_le _, Nat.le_refl _, fun _ _ _ => rfl⟩, .idle rfl,
    ⟨fun m _ => tasks m, rfl, fun m h => ?_, .inr (.inl rfl), fun _ => rfl⟩⟩
  cases (tasks m).symm.trans h

theorem ExecEffect.inv {i : Instr} {s t : State} (h : ExecEffect i s t) (k : Inv s) : Inv t := by
  cases h with
  | safe h => exact k.coreSafe h
  | poll => exact k.of_pollSafe (pollOnce_safe s) k.modeOk.pollOnce
  | reset => exact resetBlock_inv s
  | mark => exact k.withRefused true

theorem strayInput_inv (x : Wire) {s : State} (h : Inv s) : Inv (strayInput x s) := by
  rcases strayInput_cases x s with ⟨bs, -, e⟩ | e
  · rw [e]
    exact h.coreSafe (receiveBytes_safe bs s).toCore
  · rw [e]
    exact h.withRefused true

/-- What a step can do: wait, or take an entry of the store and run an instruction or take it as an
input in no format. -/
theorem step_cases {s t : State} (h : step s = .next t) :
    t = s ∨ ∃ v, (∃ i, exec i (s.withInput v) = .next t) ∨ ∃ x, t = strayInput x (s.withInput v) := by
  cases hi : s.input.issue with
  | some w =>
    rw [step_of_issue hi] at h
    refine .inr ⟨{ s.input with issue := none }, ?_⟩
    cases hd : decode (takeIssue s).cfg (.cmd w) with
    | ok i => exact .inl ⟨i, (stepIssue_of_ok hd).symm.trans h⟩
    | error e =>
      exact .inr ⟨.cmd w, (Host.Outcome.next.inj ((stepIssue_of_error hd).symm.trans h)).symm⟩
  | none =>
    cases hp : s.input.pending with
    | nil => exact .inl (Host.Outcome.next.inj ((step_of_none hi hp).symm.trans h)).symm
    | cons x rest =>
      rw [step_of_pending hi hp] at h
      refine .inr ⟨{ s.input with pending := rest }, ?_⟩
      cases hd : decodeInput (takePending rest s).cfg x with
      | ok i => exact .inl ⟨i, (stepInput_of_ok hd).symm.trans h⟩
      | error e => exact .inr ⟨x, (Host.Outcome.next.inj ((stepInput_of_error hd).symm.trans h)).symm⟩

/-- Settles O53: what a step can do is what an instruction can do, or the taking of a stray input; each
keeps the invariant. -/
theorem stepKeepsTheStateInvariant : Obligations.StepKeepsTheStateInvariant := by
  unfold Obligations.StepKeepsTheStateInvariant
  intro s t hs h
  obtain rfl | ⟨v, ⟨i, hi⟩ | ⟨x, rfl⟩⟩ := step_cases h
  · exact hs
  · exact (ExecEffect.of_exec hi).inv (hs.withInput v)
  · exact strayInput_inv x (hs.withInput v)

/-! ### What the bus agent leaves alone -/

/-- What the bus agent leaves alone, the register file at every index but `i` included. -/
structure BusKeepsBut (i : Byte) (s t : State) : Prop extends BusKeeps s t where
  read : ∀ a, a ≠ i.toNat → t.mem.read a = s.mem.read a

/-- A bus stimulus that leaves the register file as it is. -/
theorem BusSafe.keepsBut {s t : State} (h : BusSafe s t) (hm : t.mem = s.mem) (i : Byte) :
    BusKeepsBut i s t := ⟨h.toBusKeeps, fun _ _ => by rw [hm]⟩

@[simp] theorem afterRegRead_mem (s : State) (i : Byte) : (s.afterRegRead i).mem = s.mem := by
  rw [State.afterRegRead_eq, State.withDraws_mem]

@[simp] theorem busRead_mem (s : State) : (busRead s).mem = s.mem := by
  unfold busRead
  split
  · exact afterRegRead_mem s _
  · rfl

/-- The third byte of a record does not change its index. -/
theorem storeRecByte_index {s : State} {b : Byte} (h : recBytes ≤ (storeRecByte b s).bus.rxCount.toNat) :
    (storeRecByte b s).bus.record.index = s.bus.record.index := by
  have two : s.bus.rxCount.toNat = 2 := by
    have h' : 3 ≤ (s.bus.rxCount + 1).toNat := h
    rw [BitVec.toNat_add, show (1 : BitVec 2).toNat = 1 from rfl] at h'
    omega
  rw [storeRecByte, State.withBus_bus, two]
  rfl

theorem busWrite_frame (b : Byte) {s : State} (hm : s.mem.wf = true) (a : Nat)
    (h : a ≠ s.bus.record.index.toNat) : (busWrite b s).mem.read a = s.mem.read a := by
  unfold busWrite
  split
  · dsimp only
    split
    · rfl
    · next hc =>
      refine route_frame (s := (storeRecByte b s).logAck false) hm a ?_
      rw [State.logAck, State.withIo_bus, storeRecByte_index (Nat.le_of_not_lt hc)]
      exact h
  · rfl

theorem partialRecord_frame {s : State} (hm : s.mem.wf = true) (a : Nat)
    (h : a ≠ s.bus.record.index.toNat) : (partialRecord s).mem.read a = s.mem.read a := by
  unfold partialRecord
  split
  · exact route_frame (s := s.withBus { s.bus with lastRxCount := s.bus.rxCount }) hm a h
  · rfl

theorem busStop_frame (p : Bool) {s : State} (hm : s.mem.wf = true) (a : Nat)
    (h : a ≠ s.bus.record.index.toNat) : (busStop p s).mem.read a = s.mem.read a := by
  unfold busStop
  split
  · exact partialRecord_frame hm a h
  · rfl

theorem busAckFail_frame {s : State} (hm : s.mem.wf = true) (a : Nat)
    (h : a ≠ s.bus.record.index.toNat) : (busAckFail s).mem.read a = s.mem.read a := by
  unfold busAckFail
  split
  · exact partialRecord_frame hm a h
  · rfl
  · rfl
  · rfl

/-- The bus stimuli, each by what it does to the register file (10_state.md R50). -/
theorem exec_busStimulus {j : Instr} {s : State} (hm : s.mem.wf = true)
    (hj : j ∈ [.baddrw, .baddrr, .brd, .bstop false, .bstop true, .baf, .berr] ∨ ∃ b, j = .bwr b) :
    ∃ t, exec j s = .next t ∧ BusKeepsBut s.bus.record.index s t := by
  simp only [List.mem_cons, List.not_mem_nil, or_false] at hj
  obtain (rfl | rfl | rfl | rfl | rfl | rfl | rfl) | ⟨b, rfl⟩ := hj
  · exact ⟨_, rfl, (busAddrW_safe s).keepsBut rfl _⟩
  · exact ⟨_, rfl, (busAddrR_safe s).keepsBut rfl _⟩
  · exact ⟨_, rfl, (busRead_safe s).keepsBut (busRead_mem s) _⟩
  · exact ⟨_, rfl, (busStop_safe false s).toBusKeeps, busStop_frame false hm⟩
  · exact ⟨_, rfl, (busStop_safe true s).toBusKeeps, busStop_frame true hm⟩
  · exact ⟨_, rfl, (busAckFail_safe s).toBusKeeps, busAckFail_frame hm⟩
  · exact ⟨_, rfl, (busError_safe s).keepsBut rfl _⟩
  · exact ⟨_, rfl, (busWrite_safe b s).toBusKeeps, busWrite_frame b hm⟩

theorem exec_keyRow (k : Key) (lo : Byte) (s : State) : exec (keyRow k lo) s = .next (keyRecord k lo s) := by
  cases k <;> rfl

/-- Every write-record row is the bus transaction of a record with its index. -/
theorem exec_recordWrite {i lo hi : Byte} {j : Instr} {s : State}
    (hj : j ∈ [.writeRecord i lo hi, .bwrite i lo hi, .recReject i lo hi, .recRawStore i lo hi,
        .recOob i lo hi] ∨
      (j = .recKeyCmd lo hi ∧ i = 2) ∨
      (j = .recAuxCtrl lo hi ∧ i = regByte s.cfg.regAuxCtrl) ∨
      (j = .recVolumeSet lo hi ∧ i = regByte s.cfg.regVolumeSet) ∨
      (∃ k, j = keyRow k lo ∧ i = 2)) :
    ∃ hi', exec j s = .next (busRecord i lo hi' s) := by
  simp only [List.mem_cons, List.not_mem_nil, or_false] at hj
  obtain (rfl | rfl | rfl | rfl | rfl) | ⟨rfl, rfl⟩ | ⟨rfl, rfl⟩ | ⟨rfl, rfl⟩ | ⟨k, rfl, rfl⟩ := hj
  case inr.inr.inr.inr => exact ⟨(s.cfg.keyCode k).payload, exec_keyRow k lo s⟩
  all_goals exact ⟨hi, rfl⟩

/-- Settles O14: a bus stimulus by `exec_busStimulus`, a write-record row as one bus transaction. -/
theorem busAgentLeavesTheRestAlone : Obligations.BusAgentLeavesTheRestAlone := by
  unfold Obligations.BusAgentLeavesTheRestAlone
  refine ⟨fun j s hm hj => ?_, fun i lo hi j s hm hj => ?_⟩
  · obtain ⟨t, ht, hk⟩ := exec_busStimulus hm hj
    exact ⟨t, ht, hk.toBusKeeps, hk.read⟩
  · obtain ⟨hi', ht⟩ := exec_recordWrite hj
    exact ⟨_, ht, (busRecord_safe i lo hi' s).toBusKeeps, busRecord_frame i lo hi' hm⟩

end Sys2Proof.Machine
end

section
/-! PROOF. A byte stored by a record is what the next read of its index returns (20_memory.md R63), and an
index set by a one-byte write is read after a repeated start without being written or routed
(41_register_bus.md R174). -/

namespace Sys2Proof.Machine

/-! ### What the router's actions beyond the raw store can do -/

/-- The router's action offers bytes to the serial output, none where it ignores the record, or writes
the indicator level. -/
theorem routeAction_cases (i : Byte) (s : State) :
    (∃ bs, routeAction i s = afterOffer s bs) ∨ ∃ v, routeAction i s = s.withIndicator v := by
  have ignored : ∃ bs, s = afterOffer s bs := ⟨[], (afterOffer_nil s).symm⟩
  unfold routeAction routeKey volumeSet auxControl
  split
  · split
    · exact .inl ⟨_, sendFrameBus_eq _ s⟩
    · exact .inl ignored
  · split
    · split
      · exact .inl ignored
      · exact .inl ⟨_, sendFrameBus_eq _ s⟩
    · split
      · split
        · exact .inr ⟨_, rfl⟩
        · split
          · exact .inr ⟨_, rfl⟩
          · exact .inl ignored
      · exact .inl ignored

@[simp] theorem routeAction_rdLog (i : Byte) (s : State) :
    (routeAction i s).io.rdLog = s.io.rdLog := by
  obtain ⟨bs, h⟩ | ⟨v, h⟩ := routeAction_cases i s
  · rw [h]; rfl
  · rw [h]; rfl

/-! ### A whole write record at a storage index -/

section
variable (i lo hi : Byte) (s : State) (h : i.toNat < regFileSize)
include h

theorem busRecord_mem : (busRecord i lo hi s).mem = rawMemory i lo s := by
  rw [busRecord_storage i lo hi s h]
  exact routeAction_mem ..

theorem busRecord_rdLog : (busRecord i lo hi s).io.rdLog = s.io.rdLog := by
  rw [busRecord_storage i lo hi s h]
  exact routeAction_rdLog ..

end

theorem busRecord_index (i lo hi : Byte) (s : State) : (busRecord i lo hi s).bus.record.index = i := by
  rw [busRecord_eq]
  exact congrArg (·.record.index) (route_bus _)

/-- Under the byte mode of the raw store, the record's low byte stands at its index. -/
theorem busRecord_read_index (i lo hi : Byte) {s : State} (h : i.toNat < regFileSize)
    (hm : s.mem.wf = true) (hb : s.cfg.rawStoreMode = .byte) :
    (busRecord i lo hi s).mem.read i.toNat = lo := by
  have stored : rawMemory i lo s = s.mem.write i.toNat lo := by rw [rawMemory, hb]
  rw [busRecord_mem i lo hi s h, stored, Memory.read_write hm, if_pos rfl]

/-! ### A one-byte write -/

/-- BADDRW and one BWR (41_register_bus.md R170, R172): the index stored and acknowledged, the record
left incomplete. -/
theorem busWrite_busAddrW (i : Byte) (s : State) :
    busWrite i (busAddrW s) =
      ((s.withBus { s.bus with
        state := .addrW, record := { s.bus.record with index := i }, rxCount := 1 }).logAck true) := rfl

/-! ### A read transaction of one byte -/

/-- Inside a read transaction, BRD at a storage index logs the stored byte and moves on
(41_register_bus.md R175, 20_memory.md R61). -/
theorem busRead_storage {s : State} (hr : s.bus.state = .addrR) (h : s.bus.txPos.toNat < regFileSize) :
    busRead s = (s.logRead (s.mem.read s.bus.txPos.toNat)).withBus
      { s.bus with txPos := s.bus.txPos + 1, txCount := s.bus.txCount + 1 } := by
  have noDraw : s.afterRegRead s.bus.txPos = s := if_pos h
  rw [busRead, if_pos hr, noDraw, State.regReadByte_storage s _ h]
  rfl

/-- BADDRR and one BRD (41_register_bus.md R174, R175): the read starts at the index of the record as it
stands. -/
theorem busRead_busAddrR {s : State} (h : s.bus.record.index.toNat < regFileSize) :
    busRead (busAddrR s) = (s.logRead (s.mem.read s.bus.record.index.toNat)).withBus
      { s.bus with
        startPosition := s.bus.record.index
        txPos := s.bus.record.index + 1
        txCount := 1
        state := .addrR } :=
  busRead_storage (s := busAddrR s) rfl h

/-- A stimulus, a repeated start for reading and one BRD. -/
theorem runInstrs_thenRead {j : Instr} {s t : State} (hj : exec j s = .next t) :
    runInstrs [j, .baddrr, .brd] s = some (busRead (busAddrR t)) := by
  rw [runInstrs, hj]
  rfl

/-- Settles O17: the record stores its low byte at the index the read starts from; the one-byte write
sets that index and nothing the read or the router looks at. -/
theorem readsReflectTheLatestWrite : Obligations.ReadsReflectTheLatestWrite := by
  unfold Obligations.ReadsReflectTheLatestWrite
  intro i lo hi s h hm
  refine ⟨fun hb => ⟨_, runInstrs_thenRead (t := busRecord i lo hi s) rfl, ?_⟩,
    ⟨_, runInstrs_thenRead (t := busWrite i (busAddrW s)) rfl, ?_⟩⟩
  · have index := busRecord_index i lo hi s
    rw [busRead_busAddrR (by rw [index]; exact h), index, busRecord_read_index i lo hi h hm hb,
      ← busRecord_rdLog i lo hi s h]
    rfl
  · have keeps : BusKeeps s (busRead (busAddrR (busWrite i (busAddrW s)))) :=
      ((((busAddrW_safe s).trans (busWrite_safe i _)).trans (busAddrR_safe _)).trans
        (busRead_safe _)).toBusKeeps
    refine ⟨?_, ?_, ?_, ?_, keeps⟩
    all_goals
      rw [busRead_busAddrR (s := busWrite i (busAddrW s)) h, busWrite_busAddrW]
      rfl

end Sys2Proof.Machine
end

section
/-! PROOF. Decode and encode agree (30_encoding.md R80 to R97, entry 11): a primary row's own transaction
is read as that row, and whatever the decoder accepts is the row of exactly the transaction it was read
from. At the end, where a stimulus word is illegal (R97). -/

namespace Sys2Proof

/-! ### Which stimulus words R90 assigns -/

theorem stimWord_eta (w : StimWord) : stimKind w ++ stimOperand w = w := by
  rw [stimKind, stimOperand, BitVec.extractLsb'_append_extractLsb'_eq_extractLsb' (by rfl)]
  exact extract_all w

/-- R90's table, by the two bytes of a word. -/
theorem assignedWord_iff (w : StimWord) : assignedWord w = true ↔
    w.toNat / 256 ∈ [0x01, 0x02, 0x10, 0x11, 0x13, 0x22] ∨
    (w.toNat / 256 ∈ [0x12, 0x24] ∧ w.toNat % 256 ≤ 1) ∨
    (w.toNat / 256 ∈ [0x20, 0x21, 0x23, 0x25, 0x26, 0x30, 0x3F] ∧ w.toNat % 256 = 0) := by
  simp only [assignedWord, assignedKind, List.mem_cons, List.not_mem_nil, or_false]
  split_ifs with anyOperand bool zero
  · simp [anyOperand]
  · simp only [anyOperand, bool, decide_eq_true_eq, true_and, false_or]
    omega
  · simp [anyOperand, bool, zero]
  · simp [anyOperand, bool, zero]

/-- The words R90 assigns, written out: a KIND with any operand, with a Bool, or with 0. -/
inductive AssignedForm : StimWord → Prop
  | operand (k o : Byte) : k ∈ [0x01, 0x02, 0x10, 0x11, 0x13, 0x22] → AssignedForm (k ++ o)
  | bool (k : Byte) (b : Bool) : k ∈ [0x12, 0x24] → AssignedForm (k ++ boolByte b)
  | zero (k : Byte) : k ∈ [0x20, 0x21, 0x23, 0x25, 0x26, 0x30, 0x3F] → AssignedForm (k ++ (0 : Byte))

/-- A byte whose value stands in a list of small numbers is the byte of one of them. -/
theorem byte_mem_of_toNat_mem {b : Byte} {ns : List Nat} (h : b.toNat ∈ ns) :
    b ∈ ns.map (BitVec.ofNat 8) :=
  List.mem_map.mpr ⟨_, h, by simp⟩

theorem eq_boolByte {o : Byte} (h : o.toNat ≤ 1) : ∃ b, o = boolByte b := by
  obtain h0 | h1 := Nat.le_one_iff_eq_zero_or_eq_one.mp h
  · exact ⟨false, BitVec.eq_of_toNat_eq h0⟩
  · exact ⟨true, BitVec.eq_of_toNat_eq h1⟩

theorem assignedForm_of_assigned {w : StimWord} (h : assignedWord w = true) : AssignedForm w := by
  rw [assignedWord_iff, ← stimKind_toNat, ← stimOperand_toNat] at h
  rw [← stimWord_eta w]
  obtain hk | ⟨hk, ho⟩ | ⟨hk, ho⟩ := h
  · exact .operand _ _ (byte_mem_of_toNat_mem hk)
  · obtain ⟨b, hb⟩ := eq_boolByte ho
    rw [hb]
    exact .bool _ b (byte_mem_of_toNat_mem hk)
  · rw [show stimOperand w = 0 from BitVec.eq_of_toNat_eq ho]
    exact .zero _ (byte_mem_of_toNat_mem hk)

/-! ### What the decoder reads is written as the transaction it was read from -/

/-- `i` is a row whose one transaction is `x`, and no earlier row claims it. -/
structure OwnTransaction (c : Cfg) (i : Instr) (x : Wire) : Prop where
  wf : i.wf = true
  primary : isPrimary c i = true
  words : encode c i = [x]

/-- A stimulus row is written as the word it was read from, POST aside: its words are the rows' of the
event codes. -/
theorem decodeStim_own (c : Cfg) (w : StimWord) :
    OwnTransaction c (decodeStim w) (.stim w) ∨ ∃ e : Byte, w = (0x11 : Byte) ++ e := by
  cases ha : assignedWord w with
  | false =>
    rw [decodeStim_of_unassigned ha]
    exact .inl ⟨by simp [Instr.wf, ha], rfl, rfl⟩
  | true =>
    cases assignedForm_of_assigned ha with
    | operand k o hk =>
      simp only [List.mem_cons, List.not_mem_nil, or_false] at hk
      obtain rfl | rfl | rfl | rfl | rfl | rfl := hk
      · rw [decodeStim_tick]; exact .inl ⟨rfl, rfl, rfl⟩
      · rw [decodeStim_tick100]; exact .inl ⟨rfl, rfl, rfl⟩
      · rw [decodeStim_rxb]; exact .inl ⟨rfl, rfl, rfl⟩
      · exact .inr ⟨o, rfl⟩
      · rw [decodeStim_txdrop]; exact .inl ⟨rfl, rfl, rfl⟩
      · rw [decodeStim_bwr]; exact .inl ⟨rfl, rfl, rfl⟩
    | bool k b hk =>
      simp only [List.mem_cons, List.not_mem_nil, or_false] at hk
      obtain rfl | rfl := hk
      · rw [decodeStim_scan]; exact .inl ⟨rfl, rfl, rfl⟩
      · rw [decodeStim_bstop]; exact .inl ⟨rfl, rfl, rfl⟩
    | zero k hk =>
      simp only [List.mem_cons, List.not_mem_nil, or_false] at hk
      obtain rfl | rfl | rfl | rfl | rfl | rfl | rfl := hk
      all_goals exact .inl ⟨rfl, rfl, rfl⟩

theorem decodeStim_wf (w : StimWord) : (decodeStim w).wf = true := by
  obtain h | ⟨e, rfl⟩ := decodeStim_own cfg0 w
  · exact h.wf
  · rw [decodeStim_post]; rfl

theorem stimRow_post (e : Byte) : stimRow ((0x11 : Byte) ++ e) = postRow e := by
  rw [stimRow, decodeStim_post]

theorem stimRow_of_not_post {w : StimWord} (h : ∀ e, decodeStim w ≠ .post e) :
    stimRow w = decodeStim w := by
  unfold stimRow
  split
  · next e he => exact absurd he (h e)
  · rfl

theorem postRow_other {e : Byte} (h : 8 ≤ e.toNat) : postRow e = .postOther e := by
  unfold postRow
  split
  case h_9 => rfl
  all_goals omega

/-- The nine POST rows share no code (30_encoding.md R96). -/
theorem postRow_own (c : Cfg) (e : Byte) : OwnTransaction c (postRow e) (stimWord 0x11 e) := by
  obtain h | h := Nat.lt_or_ge e.toNat 8
  · have he : e ∈ (List.range 8).map (BitVec.ofNat 8) := byte_mem_of_toNat_mem (List.mem_range.mpr h)
    simp only [List.range, List.range.loop, List.map_cons, List.map_nil, List.mem_cons,
      List.not_mem_nil, or_false] at he
    obtain rfl | rfl | rfl | rfl | rfl | rfl | rfl | rfl := he
    all_goals exact ⟨rfl, rfl, rfl⟩
  · rw [postRow_other h]
    exact ⟨decide_eq_true h, rfl, rfl⟩

theorem stimRow_own (c : Cfg) (w : StimWord) : OwnTransaction c (stimRow w) (.stim w) := by
  obtain h | ⟨e, rfl⟩ := decodeStim_own c w
  · have notPost : ∀ e, decodeStim w ≠ .post e := by
      intro e he
      rw [he] at h
      cases h.primary
    rw [stimRow_of_not_post notPost]
    exact h
  · rw [stimRow_post]
    exact postRow_own c e

/-! #### Write records -/

theorem recordWord_eta (w : RecWord) :
    recordWord (w.extractLsb' 16 8) (w.extractLsb' 8 8) (w.extractLsb' 0 8) = .record w := by
  rw [recordWord, BitVec.extractLsb'_append_extractLsb'_eq_extractLsb' (by rfl),
    BitVec.extractLsb'_append_extractLsb'_eq_extractLsb' (by rfl)]
  exact congrArg Wire.record (extract_all w)

/-- The row of the key a payload is looked up as is primary: the lookup finds that key again. -/
theorem keyRow_own {c : Cfg} {hi : Byte} {k : Key} (h : keyOf c hi = some k) (lo : Byte) :
    OwnTransaction c (keyRow k lo) (recordWord (regByte regKeyCmd) lo hi) := by
  have hp := payload_of_keyOf h
  subst hp
  cases k <;> exact ⟨rfl, decide_eq_true h, rfl⟩

/-- A write record's row is written as the record it was read from: the tests that put it in its row
(41_register_bus.md R190) are its operand range and what makes it primary. -/
theorem recordRow_own (c : Cfg) (i lo hi : Byte) :
    OwnTransaction c (recordRow c i lo hi) (recordWord i lo hi) := by
  unfold recordRow
  split_ifs with hkey hvol haux hraw hoob
  · subst hkey
    split
    · next k hk => exact keyRow_own hk lo
    · next hk => exact ⟨rfl, decide_eq_true hk, rfl⟩
  · subst hvol
    exact ⟨rfl, decide_eq_true fun e => hkey (congrArg regByte e), rfl⟩
  · subst haux
    exact ⟨rfl, decide_eq_true ⟨fun e => hkey (congrArg regByte e), fun e => hvol (congrArg regByte e)⟩,
      rfl⟩
  · exact ⟨decide_eq_true hraw, decide_eq_true ⟨hkey, hvol, haux⟩, rfl⟩
  · exact ⟨decide_eq_true ⟨Nat.le_of_not_lt hraw, hoob⟩, rfl, rfl⟩
  · exact ⟨decide_eq_true (Nat.lt_of_not_le hoob), rfl, rfl⟩

/-! #### Frames -/

theorem length_le_of_decodeStatus {payload : List Byte} {i : Instr}
    (h : decodeStatus (statusBytes payload) = .ok i) : payload.length ≤ statusMaxLen := by
  rw [statusBytes, decodeStatus, if_pos ⟨rfl, rfl, rfl⟩] at h
  split at h
  · next hl => exact hl.2 ▸ hl.1
  · cases h

theorem decodeStatus_own (c : Cfg) {bs : List Byte} {i : Instr} (h : decodeStatus bs = .ok i) :
    OwnTransaction c i (.status bs) := by
  obtain ⟨payload, rfl, rfl⟩ := statusFrame_of_decodeStatus h
  exact ⟨decide_eq_true (length_le_of_decodeStatus h), rfl, rfl⟩

/-- The row a command is read as is a row of that very command (30_encoding.md R94). -/
theorem commandOf_cmdRow (c : Cfg) (p : CmdPair) : commandOf c (cmdRow c p) = some p := by
  unfold cmdRow
  split_ifs with h1 h2 h3 h4 h5 h6 h7 h8 h9 h10
  · exact congrArg some h1.symm
  · show some (CmdPair.mk c.mcSetVolume p.data) = some p
    rw [← h2.1]
  · exact congrArg some h3.symm
  · exact congrArg some h4.symm
  · exact congrArg some h5.symm
  · exact congrArg some h6.symm
  · exact congrArg some h7.symm
  · exact congrArg some h8.symm
  · exact congrArg some h9.symm
  · exact congrArg some h10.symm
  · rfl

theorem cmdRow_wf (c : Cfg) (p : CmdPair) : (cmdRow c p).wf = true := by
  unfold cmdRow
  split_ifs with h1 h2
  case pos => rfl
  case pos => exact decide_eq_true h2.2
  all_goals rfl

theorem encode_of_commandOf {c : Cfg} {i : Instr} {p : CmdPair} (h : commandOf c i = some p) :
    encode c i = [cmdWord p] := by
  cases i with
  | cmdFrame | mcStatusReq | mcSetVolume | fcUnmute | fcSpotify | fcSwitchSpotify | fcBt | fcVolUp
  | fcVolDown | fcFactoryReset | fcStandby =>
    cases h
    rfl
  | _ => cases h

/-- The converse of `cmdRow_of_primary`. -/
theorem primary_of_cmdRow {c : Cfg} {i : Instr} {p : CmdPair} (h : commandOf c i = some p)
    (hr : cmdRow c p = i) : isPrimary c i = true := by
  cases i with
  | mcStatusReq => rfl
  | cmdFrame | mcSetVolume | fcUnmute | fcSpotify | fcSwitchSpotify | fcBt | fcVolUp
  | fcVolDown | fcFactoryReset | fcStandby =>
    cases h
    exact decide_eq_true hr
  | _ => cases h

theorem cmdRow_own (c : Cfg) (p : CmdPair) : OwnTransaction c (cmdRow c p) (cmdWord p) :=
  ⟨cmdRow_wf c p, primary_of_cmdRow (commandOf_cmdRow c p) rfl,
    encode_of_commandOf (commandOf_cmdRow c p)⟩

/-- A frame with the magic and the length of FSLINK's own is the frame of its last two bytes
(30_encoding.md R80). -/
theorem cmdWord_eta {w : FrameWord} (h0 : w.extractLsb' 40 8 = magic0) (h1 : w.extractLsb' 32 8 = magic1)
    (h2 : w.extractLsb' 24 8 = magic2) (hl : w.extractLsb' 16 8 = cmdLen) :
    cmdWord ⟨w.extractLsb' 8 8, w.extractLsb' 0 8⟩ = .cmd w := by
  rw [cmdWord, ← h0, ← h1, ← h2, ← hl]
  iterate 5 rw [BitVec.extractLsb'_append_extractLsb'_eq_extractLsb' (by rfl)]
  exact congrArg Wire.cmd (extract_all w)

theorem decodeCmd_own {c : Cfg} {w : FrameWord} {i : Instr} (h : decodeCmd c w = .ok i) :
    OwnTransaction c i (.cmd w) := by
  unfold decodeCmd at h
  split_ifs at h with hm hl
  obtain ⟨h0, h1, h2⟩ := hm
  rw [← Except.ok.inj h, ← cmdWord_eta h0 h1 h2 hl]
  exact cmdRow_own c _

/-- Whatever the decoder accepts is a row of its own, written as the transaction it was read from. -/
theorem decode_own {c : Cfg} {x : Wire} {i : Instr} (h : decode c x = .ok i) : OwnTransaction c i x := by
  cases x with
  | stim w =>
    rw [← Except.ok.inj h]
    exact stimRow_own c w
  | record w =>
    rw [← Except.ok.inj h, ← recordWord_eta w]
    exact recordRow_own c _ _ _
  | status bs => exact decodeStatus_own c h
  | cmd w => exact decodeCmd_own h
  | unknown n w => cases h

/-- Settles O57, format by format of the transaction. -/
theorem decodedTransactionReencodes : Obligations.DecodedTransactionReencodes := by
  unfold Obligations.DecodedTransactionReencodes
  intro c x i h
  obtain ⟨wf, primary, words⟩ := decode_own h
  exact ⟨wf, primary, words⟩

/-! ### A primary row is read back from its own transaction -/

/-- The row is written as one transaction, which is read as the row. -/
def ReadBack (c : Cfg) (i : Instr) : Prop := ∃ x, encode c i = [x] ∧ decode c x = .ok i

theorem ReadBack.stim {c : Cfg} {i : Instr} {w : StimWord} (he : encode c i = [.stim w])
    (hd : stimRow w = i) : ReadBack c i := ⟨_, he, congrArg Except.ok hd⟩

theorem decode_recordWord (c : Cfg) (i lo hi : Byte) :
    decode c (recordWord i lo hi) = .ok (recordRow c i lo hi) := by
  rw [recordWord, decode, record_index, record_lo, record_hi]

theorem ReadBack.record {c : Cfg} {j : Instr} {i lo hi : Byte} (he : encode c j = [recordWord i lo hi])
    (hd : recordRow c i lo hi = j) : ReadBack c j :=
  ⟨_, he, (decode_recordWord c i lo hi).trans (congrArg Except.ok hd)⟩

theorem ReadBack.command {c : Cfg} {i : Instr} {p : CmdPair} (h : commandOf c i = some p)
    (hp : isPrimary c i = true) : ReadBack c i :=
  ⟨_, encode_of_commandOf h, (decode_cmdWord c p).trans (congrArg Except.ok (cmdRow_of_primary h hp))⟩

/-- A status frame of an admitted length is accepted, and as the frame of its own payload
(30_encoding.md R82). -/
theorem ReadBack.status {c : Cfg} {payload : List Byte} (h : payload.length ≤ statusMaxLen) :
    ReadBack c (.statusFrame payload) := by
  obtain ⟨i, hi⟩ := Laws.Words.status_ok c payload h _ (List.mem_singleton_self _)
  obtain ⟨payload', rfl, same⟩ := statusFrame_of_decodeStatus (bs := statusBytes payload) hi
  obtain rfl : payload' = payload := congrArg (List.drop 4) same
  exact ⟨_, rfl, hi⟩

/-! #### The router's order of tests, row by row (41_register_bus.md R190) -/

theorem recordRow_key {c : Cfg} {hi : Byte} {k : Key} (h : keyOf c hi = some k) (lo : Byte) :
    recordRow c (regByte regKeyCmd) lo hi = keyRow k lo := by
  rw [recordRow, if_pos rfl, h]

theorem recordRow_keyCmd {c : Cfg} {hi : Byte} (h : keyOf c hi = none) (lo : Byte) :
    recordRow c (regByte regKeyCmd) lo hi = .recKeyCmd lo hi := by
  rw [recordRow, if_pos rfl, h]

theorem recordRow_volumeSet {c : Cfg} (h : c.regVolumeSet ≠ regKeyCmd) (lo hi : Byte) :
    recordRow c (regByte c.regVolumeSet) lo hi = .recVolumeSet lo hi := by
  rw [recordRow, if_neg fun e => h (Machine.regByte_inj e), if_pos rfl]

theorem recordRow_auxCtrl {c : Cfg} (hk : c.regAuxCtrl ≠ regKeyCmd) (hv : c.regAuxCtrl ≠ c.regVolumeSet)
    (lo hi : Byte) : recordRow c (regByte c.regAuxCtrl) lo hi = .recAuxCtrl lo hi := by
  rw [recordRow, if_neg fun e => hk (Machine.regByte_inj e),
    if_neg fun e => hv (Machine.regByte_inj e), if_pos rfl]

/-- An index outside the storage is no named register's. -/
theorem ne_regByte {i : Byte} (h : regFileSize ≤ i.toNat) (r : Fin 12) : i ≠ regByte r := by
  rintro rfl
  rw [Machine.regByte_toNat] at h
  exact Nat.not_lt.mpr h r.isLt

/-- Where no named register stands, the index alone decides. -/
theorem recordRow_unnamed {c : Cfg} {i : Byte} (hk : i ≠ regByte regKeyCmd)
    (hv : i ≠ regByte c.regVolumeSet) (ha : i ≠ regByte c.regAuxCtrl) (lo hi : Byte) :
    recordRow c i lo hi =
      if i.toNat < regFileSize then .recRawStore i lo hi
      else if i.toNat ≤ regIndexMax then .recOob i lo hi
      else .recReject i lo hi := by
  rw [recordRow, if_neg hk, if_neg hv, if_neg ha]

theorem recordRow_oob {i : Byte} (h : regFileSize ≤ i.toNat) (h' : i.toNat ≤ regIndexMax) (c : Cfg)
    (lo hi : Byte) : recordRow c i lo hi = .recOob i lo hi := by
  rw [recordRow_unnamed (ne_regByte h _) (ne_regByte h _) (ne_regByte h _), if_neg (Nat.not_lt.mpr h),
    if_pos h']

theorem recordRow_reject {i : Byte} (h : regIndexMax < i.toNat) (c : Cfg) (lo hi : Byte) :
    recordRow c i lo hi = .recReject i lo hi := by
  have hs : regFileSize ≤ i.toNat := Nat.le_trans (by decide) h
  rw [recordRow_unnamed (ne_regByte hs _) (ne_regByte hs _) (ne_regByte hs _), if_neg (Nat.not_lt.mpr hs),
    if_neg (Nat.not_le.mpr h)]

/-- A key row no earlier key claims the payload of is read back. -/
theorem ReadBack.key {c : Cfg} (k : Key) (lo : Byte) (hp : isPrimary c (keyRow k lo) = true) :
    ReadBack c (keyRow k lo) := by
  have own : keyOf c (c.keyCode k).payload = some k := by
    cases k <;> exact of_decide_eq_true hp
  refine .record ?_ (recordRow_key own lo)
  cases k <;> rfl

/-- Every well-formed row that no other row shadows is read back. -/
theorem readBack_of_primary {c : Cfg} {i : Instr} (hw : i.wf = true) (hp : isPrimary c i = true) :
    ReadBack c i := by
  cases i with
  | tick n => exact .stim rfl (by rw [stimRow, decodeStim_tick])
  | tick100 n => exact .stim rfl (by rw [stimRow, decodeStim_tick100])
  | rxb b => exact .stim rfl (by rw [stimRow, decodeStim_rxb])
  | txdrop n => exact .stim rfl (by rw [stimRow, decodeStim_txdrop])
  | bwr b => exact .stim rfl (by rw [stimRow, decodeStim_bwr])
  | scan b => exact .stim rfl (by rw [stimRow, decodeStim_scan])
  | bstop p => exact .stim rfl (by rw [stimRow, decodeStim_bstop])
  | baddrw | baddrr | brd | baf | berr | poll | reset => exact .stim rfl rfl
  | illegal w =>
    have unassigned : assignedWord w = false := by simpa [Instr.wf] using hw
    exact .stim rfl (by rw [stimRow, decodeStim_of_unassigned unassigned])
  | postNone | postVolUp | postVolDown | postModeToggle | postSetModeFromModule | postPower
  | postFactoryReset | postModuleVolumeSet => exact .stim rfl (stimRow_post _)
  | postOther e => exact .stim rfl ((stimRow_post e).trans (postRow_other (of_decide_eq_true hw)))
  | statusFrame payload => exact .status (of_decide_eq_true hw)
  | recReject i lo hi => exact .record rfl (recordRow_reject (of_decide_eq_true hw) c lo hi)
  | recRawStore i lo hi =>
    obtain ⟨hk, hv, ha⟩ := of_decide_eq_true hp
    exact .record rfl ((recordRow_unnamed hk hv ha lo hi).trans (if_pos (of_decide_eq_true hw)))
  | recOob i lo hi =>
    obtain ⟨hs, hm⟩ := of_decide_eq_true hw
    exact .record rfl (recordRow_oob hs hm c lo hi)
  | recKeyCmd lo hi => exact .record rfl (recordRow_keyCmd (of_decide_eq_true hp) lo)
  | recAuxCtrl lo hi =>
    obtain ⟨hk, hv⟩ := of_decide_eq_true hp
    exact .record rfl (recordRow_auxCtrl hk hv lo hi)
  | recVolumeSet lo hi => exact .record rfl (recordRow_volumeSet (of_decide_eq_true hp) lo hi)
  | keyMute lo => exact .key .mute lo hp
  | keyUnmute lo => exact .key .unmute lo hp
  | keySpotifyMode lo => exact .key .spotifyMode lo hp
  | keyBtMode lo => exact .key .btMode lo hp
  | keyVolUp lo => exact .key .volUp lo hp
  | keyVolDown lo => exact .key .volDown lo hp
  | keyPlayPause lo => exact .key .playPause lo hp
  | keyNext lo => exact .key .next lo hp
  | keyPrev lo => exact .key .prev lo hp
  | keyResetNetwork lo => exact .key .resetNetwork lo hp
  | keyFactoryReset lo => exact .key .factoryReset lo hp
  | cmdFrame | mcStatusReq | mcSetVolume | fcUnmute | fcSpotify | fcSwitchSpotify | fcBt | fcVolUp
  | fcVolDown | fcFactoryReset | fcStandby => exact .command rfl hp
  | post | rxseq | rxstatus | bwrite | bsetidx | bread | wait | nop | writeRecord => cases hp

/-- Settles O56, row by row. -/
theorem encodedInstructionDecodesToItself : Obligations.EncodedInstructionDecodesToItself := by
  unfold Obligations.EncodedInstructionDecodesToItself
  intro c i hw hp
  exact readBack_of_primary hw hp

/-! ### Single words -/

/-- Settles O6: a word the decoder reads as illegal is well-formed as one, so R90 does not assign it. -/
theorem illegalWordSetsRefused : Obligations.IllegalWordSetsRefused := by
  unfold Obligations.IllegalWordSetsRefused
  refine ⟨fun w s => rfl, fun w => ?_⟩
  rw [← assignedWord_iff, Bool.not_eq_true]
  constructor
  · intro h
    have wf := decodeStim_wf w
    rw [h] at wf
    simpa [Instr.wf] using wf
  · exact decodeStim_of_unassigned

/-- Settles O58, each word by the decoder's own evaluation. -/
theorem handWrittenWordsDecode : Obligations.HandWrittenWordsDecode := by
  unfold Obligations.HandWrittenWordsDecode
  exact ⟨rfl, rfl, rfl, rfl, rfl, rfl, rfl, rfl, rfl, rfl⟩

end Sys2Proof
end

section
/-! PROOF. Script lines are their expansion, run in order (30_encoding.md R91, R92): WAIT as one advance of
the tick, BREAD as a stream of register bytes, BSETIDX as a one-byte write. Beside them the eleven key rows
(R93) and TXDROP (R95). -/

namespace Sys2Proof.Machine

/-! ### Expansions -/

/-- Bytes arriving one by one are RXB for each. -/
theorem runInstrs_rxb (bs : List Byte) (s : State) :
    runInstrs (bs.map Instr.rxb) s = some (receiveBytes bs s) := by
  induction bs generalizing s with
  | nil => rfl
  | cons b bs ih => exact (runInstrs_cons rfl _).trans (ih (receiveByte b s))

theorem runInstrs_brd (n : Nat) (s : State) :
    runInstrs (List.replicate n .brd) s = some (busReads n s) := by
  induction n generalizing s with
  | zero => rfl
  | succ n ih => exact (runInstrs_cons rfl _).trans (ih (busRead s))

theorem runInstrs_bread (n : Nat) (s : State) :
    runInstrs ([.baddrr] ++ List.replicate n .brd ++ [.baf, .bstop false]) s =
      some (busStop false (busAckFail (busReads n (busAddrR s)))) := by
  rw [List.append_assoc, List.singleton_append, runInstrs_cons (t := busAddrR s) rfl, runInstrs_append,
    runInstrs_brd]
  rfl

theorem runInstrs_wait (t : Nat) (s : State) :
    runInstrs ((if 100 ≤ t then [.tick100 (BitVec.ofNat 8 (t / 100))] else []) ++
      (if t % 100 ≠ 0 then [.tick (BitVec.ofNat 8 (t % 100))] else [])) s =
      some (waitRest t (waitHundreds t s)) := by
  have hundreds : runInstrs (if 100 ≤ t then [.tick100 (BitVec.ofNat 8 (t / 100))] else []) s =
      some (waitHundreds t s) := by
    unfold waitHundreds
    split <;> rfl
  rw [runInstrs_append, hundreds, Option.bind_some]
  unfold waitRest
  split <;> rfl

/-- Settles O24, line by line. -/
theorem scriptLinesAreTheirExpansion : Obligations.ScriptLinesAreTheirExpansion := by
  unfold Obligations.ScriptLinesAreTheirExpansion
  intro s
  refine ⟨fun bs => ⟨_, rfl, runInstrs_rxb bs s⟩, fun d0 d1 d2 d3 => ⟨_, rfl, rfl⟩,
    fun i lo hi => ⟨_, rfl, rfl⟩, fun i => ⟨_, rfl, rfl⟩, fun n => ⟨_, rfl, runInstrs_bread n s⟩,
    fun w => ⟨_, rfl, runInstrs_wait w.val s⟩, rfl⟩

/-! ### WAIT -/

theorem advance_zero {s : State} (h : s.now < 2 ^ s.cfg.tickBits) : advance 0 s = s := by
  rw [advance, wrapTick, Nat.add_zero, Nat.mod_eq_of_lt h, State.withNow_self]

theorem advance_advance (m n : Nat) (s : State) : advance n (advance m s) = advance (m + n) s := by
  simp only [advance, wrapTick, State.withNow_withNow, State.withNow_cfg, State.withNow_now,
    Nat.mod_add_mod, Nat.add_assoc]

theorem waitHundreds_eq {t : Nat} {s : State} (ht : t < 25600) (h : s.now < 2 ^ s.cfg.tickBits) :
    waitHundreds t s = advance (100 * (t / 100)) s := by
  unfold waitHundreds
  split
  · rw [tick100By, BitVec.toNat_ofNat, Nat.mod_eq_of_lt (by omega)]
  · rw [Nat.div_eq_of_lt (by omega), advance_zero h]

theorem waitRest_eq {t : Nat} {s : State} (h : s.now < 2 ^ s.cfg.tickBits) :
    waitRest t s = advance (t % 100) s := by
  unfold waitRest
  split
  · rw [tickBy, BitVec.toNat_ofNat, Nat.mod_eq_of_lt (by omega)]
  · next h0 => rw [not_not.mp h0, advance_zero h]

/-- Settles O2: hundreds and rest are two advances that add up. -/
theorem waitAdvancesByItsMilliseconds : Obligations.WaitAdvancesByItsMilliseconds := by
  unfold Obligations.WaitAdvancesByItsMilliseconds
  intro t s h
  have inRange : (advance (100 * (t.val / 100)) s).now < 2 ^ s.cfg.tickBits :=
    Nat.mod_lt _ (Nat.two_pow_pos _)
  show Host.Outcome.next (waitRest t.val (waitHundreds t.val s)) = .next (advance t.val s)
  rw [waitHundreds_eq t.isLt h, waitRest_eq inRange, advance_advance, Nat.div_add_mod]

/-! ### BREAD -/

/-- The bytes `n` reads in a row return inside a read transaction (41_register_bus.md R175). -/
def streamedBytes : Nat → State → List Byte
  | 0, _ => []
  | n + 1, s => s.regReadByte s.bus.txPos :: streamedBytes n (busRead s)

theorem streamedBytes_length (n : Nat) (s : State) : (streamedBytes n s).length = n := by
  induction n generalizing s with
  | zero => rfl
  | succ n ih => exact congrArg (· + 1) (ih (busRead s))

/-- What BRD does inside a read transaction, wherever the position is. -/
theorem busRead_addrR {s : State} (hr : s.bus.state = .addrR) :
    busRead s = { s with
      io := { s.io with rdLog := s.io.rdLog ++ [s.regReadByte s.bus.txPos] }
      bus := { s.bus with txPos := s.bus.txPos + 1, txCount := s.bus.txCount + 1 }
      draws := (busRead s).draws } := by
  rw [busRead, if_pos hr, State.afterRegRead_eq]
  rfl

/-- What `n` reads in a row do inside a read transaction. -/
theorem busReads_addrR (n : Nat) {s : State} (hr : s.bus.state = .addrR) :
    busReads n s = { s with
      io := { s.io with rdLog := s.io.rdLog ++ streamedBytes n s }
      bus := { s.bus with
        txPos := s.bus.txPos + BitVec.ofNat 8 n, txCount := s.bus.txCount + BitVec.ofNat 32 n }
      draws := (busReads n s).draws } := by
  induction n generalizing s with
  | zero => simp [busReads, streamedBytes]
  | succ n ih =>
    have one := busRead_addrR hr
    have reading : (busRead s).bus.state = .addrR := by rw [one]; exact hr
    rw [busReads, ih reading, streamedBytes]
    generalize (busReads n (busRead s)).draws = d
    generalize streamedBytes n (busRead s) = bs
    rw [one]
    simp [BitVec.ofNat_add, add_comm, add_left_comm]

/-- Each byte streamed from an index that holds storage is the stored byte (20_memory.md R61). -/
theorem streamedBytes_getElem? {n k : Nat} {s : State} (hr : s.bus.state = .addrR) (hk : k < n)
    (h : (s.bus.txPos.toNat + k) % 256 < regFileSize) :
    (streamedBytes n s)[k]? = some (s.mem.read ((s.bus.txPos.toNat + k) % 256)) := by
  induction n generalizing s k with
  | zero => exact absurd hk (Nat.not_lt_zero k)
  | succ n ih =>
    cases k with
    | zero =>
      have pos : (s.bus.txPos.toNat + 0) % 256 = s.bus.txPos.toNat := Nat.mod_eq_of_lt s.bus.txPos.isLt
      rw [pos] at h ⊢
      exact congrArg some (State.regReadByte_storage s _ h)
    | succ k =>
      have one := busRead_addrR hr
      have reading : (busRead s).bus.state = .addrR := by rw [one]; exact hr
      have pos : ((busRead s).bus.txPos.toNat + k) % 256 = (s.bus.txPos.toNat + (k + 1)) % 256 := by
        rw [one]
        show ((s.bus.txPos + 1).toNat + k) % 256 = _
        rw [BitVec.toNat_add, show (1 : Byte).toNat = 1 from rfl]
        omega
      rw [streamedBytes, List.getElem?_cons_succ, ih reading (Nat.lt_of_succ_lt_succ hk) (by rwa [pos]),
        pos, busRead_mem]

/-- BREAD whole: addressed, streamed, ended by the acknowledge failure and the stop. -/
theorem bread_eq (n : Nat) (s : State) :
    busStop false (busAckFail (busReads n (busAddrR s))) = { s with
      io := { s.io with rdLog := s.io.rdLog ++ streamedBytes n (busAddrR s) }
      bus := { s.bus with
        startPosition := s.bus.record.index
        txPos := s.bus.record.index + BitVec.ofNat 8 n
        txCount := 0
        lastTxCount := BitVec.ofNat 32 n
        state := .idle }
      draws := (busReads n (busAddrR s)).draws } := by
  rw [busReads_addrR n (s := busAddrR s) rfl]
  simp [busAddrR, busAckFail, busStop, busIdle, State.withBus]

/-- Settles O12. -/
theorem breadStreamsRegisters : Obligations.BreadStreamsRegisters := by
  unfold Obligations.BreadStreamsRegisters
  intro n s
  refine ⟨_, streamedBytes n (busAddrR s), rfl, streamedBytes_length n _,
    fun k hk h => streamedBytes_getElem? (s := busAddrR s) rfl hk h, ?_⟩
  rw [bread_eq]

/-! ### BSETIDX -/

/-- Settles O18: the one-byte write of `busWrite_busAddrW`. -/
theorem bsetidxLeavesRecordIncomplete : Obligations.BsetidxLeavesRecordIncomplete := by
  unfold Obligations.BsetidxLeavesRecordIncomplete
  intro i s
  exact congrArg Host.Outcome.next (busWrite_busAddrW i s)

/-! ### The key rows -/

/-- The router sends a key record's command (41_register_bus.md R195). -/
theorem routeAction_key {s : State} {k : Key} (h : keyOf s.cfg s.bus.record.hi = some k) :
    routeAction (regByte regKeyCmd) s =
      afterOffer s [0xFF, 0x46, 0x53, 0x02, (s.cfg.keyCode k).cmd, 0x80] := by
  rw [routeAction, if_pos rfl, routeKey, h]
  exact sendFrameBus_eq _ s

/-- What a key record does, `k'` being the key its payload is looked up as: received, stored, the command
of `k'` offered, listening again. -/
theorem keyRecord_eq {k k' : Key} {s : State} (lo : Byte)
    (h : keyOf s.cfg (s.cfg.keyCode k).payload = some k') :
    keyRecord k lo s = afterOffer { s with
      io := { s.io with ackLog := s.io.ackLog ++ [true, true, false] }
      bus := { s.bus with
        state := .idle, record := ⟨2, lo, (s.cfg.keyCode k).payload⟩, rxCount := 3 }
      mem := rawMemory 2 lo s } [0xFF, 0x46, 0x53, 0x02, (s.cfg.keyCode k').cmd, 0x80] := by
  rw [keyRecord, busRecord_storage _ _ _ _ (by decide), routeAction_key h]
  rfl

theorem keyOf_eq_of_distinct {c : Cfg} {k k' : Key} (h : keyOf c (c.keyCode k).payload = some k')
    (distinct : ∀ j, (c.keyCode j).payload = (c.keyCode k).payload → j = k) : k' = k :=
  distinct k' (payload_of_keyOf h)

/-- Settles O20: `k'` is the key the row's own payload is looked up as. -/
theorem everyKeyRowSendsItsCommand : Obligations.EveryKeyRowSendsItsCommand := by
  unfold Obligations.EveryKeyRowSendsItsCommand
  intro k lo s
  obtain ⟨k', hk', payload⟩ := keyOf_self s.cfg k
  refine ⟨k', payload, keyOf_eq_of_distinct hk', fun j hj hk => ?_⟩
  have row : j.2 = keyRow k lo := by
    subst hk
    simp only [List.mem_cons, List.not_mem_nil, or_false] at hj
    obtain rfl | rfl | rfl | rfl | rfl | rfl | rfl | rfl | rfl | rfl | rfl := hj
    all_goals rfl
  rw [row, exec_keyRow, keyRecord_eq lo hk']
  rfl

/-! ### TXDROP -/

theorem emit_dropped {s : State} (b : Byte) (h : 0 < s.io.envTxDrop) :
    emit b s = s.withIo { s.io with envTxDrop := s.io.envTxDrop - 1 } := if_pos h

theorem emit_offered {s : State} (b : Byte) (h : s.io.envTxDrop = 0) :
    emit b s = if s.sinkAccepts then (s.withDraws (s.draws + 1)).logTx b
      else s.withDraws (s.draws + 1) := if_neg (by omega)

theorem sinkAccepts_iff (s : State) :
    s.sinkAccepts = true ↔ s.scripted = true ∨ Config.drawAccept s.draws = true := Bool.or_eq_true_iff

/-- Settles O5: a byte is dropped while the counter is not 0, else offered to the sink. -/
theorem txdropAbandonsOfferedBytes : Obligations.TxdropAbandonsOfferedBytes := by
  unfold Obligations.TxdropAbandonsOfferedBytes
  intro s
  refine ⟨fun n => rfl, fun b h => emit_dropped b h, fun b h => ?_⟩
  rw [emit_offered b h]
  by_cases taken : s.sinkAccepts = true
  · rw [if_pos taken, if_pos ((sinkAccepts_iff s).mp taken)]
    rfl
  · rw [if_neg taken, if_neg (mt (sinkAccepts_iff s).mpr taken)]
    rfl

end Sys2Proof.Machine
end

section
/-! PROOF. The environment's bytes and ticks as they come in: TICK and TICK100 (40_serial_link.md R150,
R151), and the bytes queued as far as the FIFO has room (R110). -/

namespace Sys2Proof.Machine

/-- Settles O1: a tick stimulus is `advance`, and `advance` writes the tick alone. -/
theorem ticksAdvanceNow : Obligations.TicksAdvanceNow := by
  unfold Obligations.TicksAdvanceNow
  exact fun n s => ⟨rfl, rfl⟩

@[simp] theorem setFifo_cfg (l : List Byte) (s : State) : (setFifo l s).cfg = s.cfg := rfl

theorem receiveByte_of_room {s : State} (b : Byte) (h : s.sync.rxFifo.length < s.cfg.rxFifoDepth) :
    receiveByte b s = setFifo (s.sync.rxFifo ++ [b]) s := if_pos h

theorem receiveByte_of_full {s : State} (b : Byte) (h : s.cfg.rxFifoDepth ≤ s.sync.rxFifo.length) :
    receiveByte b s = s := if_neg (Nat.not_lt.mpr h)

/-- Bytes that arrive in a row are queued in order as far as the FIFO has room (40_serial_link.md R110). -/
theorem receiveBytes_eq (bs : List Byte) (s : State) :
    receiveBytes bs s =
      setFifo (s.sync.rxFifo ++ bs.take (s.cfg.rxFifoDepth - s.sync.rxFifo.length)) s := by
  induction bs generalizing s with
  | nil => rw [List.take_nil, List.append_nil]; rfl
  | cons b bs ih =>
    have arrive : receiveBytes (b :: bs) s = receiveBytes bs (receiveByte b s) := rfl
    rw [arrive, ih]
    rcases Nat.lt_or_ge s.sync.rxFifo.length s.cfg.rxFifoDepth with room | full
    · have left : s.cfg.rxFifoDepth - s.sync.rxFifo.length =
          s.cfg.rxFifoDepth - (s.sync.rxFifo.length + 1) + 1 := by omega
      rw [receiveByte_of_room b room, left]
      simp
    · rw [receiveByte_of_full b full, Nat.sub_eq_zero_of_le full, List.take_zero, List.take_zero]

/-- Settles O3: the rows of several bytes by `receiveBytes_eq`, RXB by its definition. -/
theorem receivedBytesQueueInOrder : Obligations.ReceivedBytesQueueInOrder := by
  unfold Obligations.ReceivedBytesQueueInOrder
  intro s
  have queue : ∀ bs, Host.Outcome.next (φ := Fault) (ρ := Refusal) (receiveBytes bs s) = _ :=
    fun bs => congrArg Host.Outcome.next (receiveBytes_eq bs s)
  exact ⟨fun b => rfl, queue, fun d0 d1 d2 d3 => queue _, fun payload _ => queue _⟩

end Sys2Proof.Machine
end

section
/-! PROOF. The byte stream synchronizer: one byte in each of its states (40_serial_link.md R112 to R115,
R117), SyncCall as its loop (R116), and a whole frame that arrives in any chunks (R119). -/

namespace Sys2Proof.Machine

/-! ### One byte while scanning for the magic bytes -/

theorem syncByte_awaitM1 (b : Byte) {s : State} (h : s.sync.state = .awaitM1) :
    syncByte b s = (false, s.withSync { s.sync with
      state := if b = magic0 then .awaitM2 else .awaitM1 }) := by
  unfold syncByte
  rw [h]
  dsimp only [syncAwaitM1]
  split
  · rfl
  · rw [← h, State.withSync_self]

theorem syncByte_awaitM2 (b : Byte) {s : State} (h : s.sync.state = .awaitM2) :
    syncByte b s = (false, s.withSync { s.sync with
      state := if b = magic1 then .awaitM3 else .awaitM2 }) := by
  unfold syncByte
  rw [h]
  dsimp only [syncAwaitM2]
  split
  · rfl
  · split
    · rfl
    · rw [← h, State.withSync_self]

theorem syncByte_awaitM3 (b : Byte) {s : State} (h : s.sync.state = .awaitM3) :
    syncByte b s = (false, s.withSync { s.sync with
      state := if b = magic2 then .collect else if b = magic0 then .awaitM2 else .awaitM3
      count := if b = magic2 then 0 else s.sync.count }) := by
  unfold syncByte
  rw [h]
  dsimp only [syncAwaitM3]
  split
  · rfl
  · split
    · rfl
    · rw [← h, State.withSync_self]

/-- Settles O28. -/
theorem magicByteScan : Obligations.MagicByteScan := by
  unfold Obligations.MagicByteScan
  exact fun b s => ⟨syncByte_awaitM1 b, syncByte_awaitM2 b, syncByte_awaitM3 b⟩

/-! ### One byte of a frame -/

/-- A length byte above the maximum drops the frame (40_serial_link.md R114). -/
theorem syncByte_oversized {b : Byte} {s : State} (h : s.sync.state = .collect) (h0 : s.sync.count = 0)
    (hb : statusMaxLen < b.toNat) :
    syncByte b s = (false, s.withSync { s.sync with state := .awaitM1, count := 0 }) := by
  rw [syncByte, h]
  dsimp only
  rw [if_pos h0, syncLength, if_pos hb]

theorem syncFinish_complete {s : State} (h : s.sync.count = s.sync.len + 1) :
    syncFinish s = (true, frameComplete s) := if_pos h

theorem syncFinish_more {s : State} (h : s.sync.count ≠ s.sync.len + 1) :
    syncFinish s = (false, s) := if_neg h

/-- A length byte 0 completes the frame at once; it has no payload (R114, R117). -/
theorem syncByte_length_zero {s : State} (h : s.sync.state = .collect) (h0 : s.sync.count = 0) :
    syncByte 0 s = (true, (s.withLink { s.link with ready := true }).withSync
      { s.sync with state := .awaitM1, len := 0, count := 0 }) := by
  rw [syncByte, h]
  dsimp only
  rw [if_pos h0]
  rfl

/-- Any other length byte is stored, and the payload is awaited (R114). -/
theorem syncByte_length {b : Byte} {s : State} (h : s.sync.state = .collect) (h0 : s.sync.count = 0)
    (hb0 : b ≠ 0) (hb : b.toNat ≤ statusMaxLen) :
    syncByte b s = (false, s.withSync { s.sync with len := BitVec.ofNat 3 b.toNat, count := 1 }) := by
  have low : b.extractLsb' 0 3 = BitVec.ofNat 3 b.toNat := BitVec.eq_of_toNat_eq (by simp)
  have more : (1 : BitVec 3) ≠ BitVec.ofNat 3 b.toNat + 1 := by
    unfold statusMaxLen at hb
    bv_omega
  rw [syncByte, h]
  dsimp only
  rw [if_pos h0, syncLength, if_neg (Nat.not_lt.mpr hb), low, syncFinish_more more]

/-- The state with a payload byte stored and counted (R115). -/
def storePayload (b : Byte) (s : State) : State :=
  s.withSync { s.sync with
    buf := s.sync.buf.set (s.sync.count.toNat - 1) b, count := s.sync.count + 1 }

/-- A payload byte before the last is stored and counted (R115). -/
theorem syncByte_payload {b : Byte} {s : State} (h : s.sync.state = .collect)
    (h0 : s.sync.count ≠ 0) (hl : s.sync.count ≠ s.sync.len) :
    syncByte b s = (false, storePayload b s) := by
  rw [syncByte, h]
  dsimp only
  rw [if_neg h0, syncPayload, syncFinish_more (fun e => hl ((BitVec.add_left_inj _).mp e))]
  rfl

/-- The last payload byte is stored, and the frame is complete (R115, R117). -/
theorem syncByte_payload_last {b : Byte} {s : State} (h : s.sync.state = .collect)
    (h0 : s.sync.count ≠ 0) (hl : s.sync.count = s.sync.len) :
    syncByte b s = (true, frameComplete (storePayload b s)) := by
  rw [syncByte, h]
  dsimp only
  rw [if_neg h0, syncPayload, syncFinish_complete (congrArg (· + 1) hl)]
  rfl

theorem storePayload_buf_get (b : Byte) {s : State} (h1 : 1 ≤ s.sync.count.toNat)
    (h4 : s.sync.count.toNat ≤ 4) {k : Nat} (hk : k < 4) :
    (storePayload b s).sync.buf.get k =
      if k + 1 = s.sync.count.toNat then b else s.sync.buf.get k := by
  rw [storePayload, State.withSync_sync, Quad.get_set _ _ _ _ (by omega) hk]
  congr 1
  exact propext (by omega)

/-- Settles O29. -/
theorem collectedBytes : Obligations.CollectedBytes := by
  unfold Obligations.CollectedBytes
  intro b s h
  refine ⟨fun h0 => ⟨syncByte_oversized h h0, ?_, syncByte_length h h0⟩, fun h1 h4 => ?_⟩
  · rintro rfl
    exact syncByte_length_zero h h0
  · have h0 : s.sync.count ≠ 0 := by
      intro e
      rw [e] at h1
      exact absurd h1 (by decide)
    have stored := fun k (hk : k < 4) => storePayload_buf_get b h1 h4 hk
    exact ⟨fun hl => ⟨_, syncByte_payload h h0 hl, rfl, stored⟩,
      fun hl => ⟨_, syncByte_payload_last h h0 hl, rfl, stored,
        fun k hk => Quad.get_copyFirst _ _ _ k hk⟩⟩

/-! ### SyncCall as its loop -/

/-- The fuel of a SyncCall suffices (entry 17). -/
theorem syncMeasure_lt_syncFuel (s : State) : syncMeasure s < syncFuel s := Nat.lt_succ_self _

/-- Settles O30: with `syncFuel` passes the fuel never shows, so every pass may take it anew. -/
theorem syncCallIsItsLoop : Obligations.SyncCallIsItsLoop := by
  unfold Obligations.SyncCallIsItsLoop
  intro tCall s
  refine ⟨_, rfl, rfl, ?_⟩
  rw [syncLoop_pass _ _ _ (syncMeasure_lt_syncFuel s)]
  cases queued : (interruptPoint s).sync.rxFifo with
  | nil => rfl
  | cons b rest =>
    have enough : syncMeasure (syncByte b (setFifo rest (interruptPoint s))).2 < syncFuel s - 1 :=
      syncMeasure_pass queued
    dsimp only
    rw [syncLoop_fuel tCall _ _ _ enough (syncMeasure_lt_syncFuel _)]
    rfl

/-! ### Bytes in a row -/

/-- The synchronizer takes the bytes and reports no frame. -/
inductive Scans : List Byte → State → State → Prop
  | nil (s : State) : Scans [] s s
  | cons {b : Byte} {bs : List Byte} {s t u : State} :
      syncByte b s = (false, t) → Scans bs t u → Scans (b :: bs) s u

/-- The synchronizer takes the bytes and reports a frame at the last one alone. -/
inductive Completes : List Byte → State → State → Prop
  | last {b : Byte} {s t : State} : syncByte b s = (true, t) → Completes [b] s t
  | cons {b : Byte} {bs : List Byte} {s t u : State} :
      syncByte b s = (false, t) → Completes bs t u → Completes (b :: bs) s u

theorem Scans.append {xs ys : List Byte} {s t u : State} (h : Scans xs s t) (k : Scans ys t u) :
    Scans (xs ++ ys) s u := by
  induction h with
  | nil => exact k
  | cons hb _ ih => exact .cons hb (ih k)

theorem Scans.completes {xs ys : List Byte} {s t u : State} (h : Scans xs s t)
    (k : Completes ys t u) : Completes (xs ++ ys) s u := by
  induction h with
  | nil => exact k
  | cons hb _ ih => exact .cons hb (ih k)

/-- A part of the bytes of a frame is scanned only, or it is all of them. -/
theorem Completes.split {xs ys : List Byte} {s u : State} (h : Completes (xs ++ ys) s u) :
    (∃ t, Scans xs s t ∧ Completes ys t u) ∨ (Completes xs s u ∧ ys = []) := by
  induction xs generalizing s with
  | nil => exact .inl ⟨s, .nil s, h⟩
  | cons x xs ih =>
    generalize hbs : x :: xs ++ ys = bs at h
    cases h with
    | last hb =>
      obtain ⟨rfl, hnil⟩ := List.cons.inj hbs
      obtain ⟨rfl, rfl⟩ := List.append_eq_nil_iff.mp hnil
      exact .inr ⟨.last hb, rfl⟩
    | cons hb hrest =>
      obtain ⟨rfl, rfl⟩ := List.cons.inj hbs
      rcases ih hrest with ⟨t, ht, hys⟩ | ⟨hxs, hys⟩
      · exact .inl ⟨t, .cons hb ht, hys⟩
      · exact .inr ⟨.cons hb hxs, hys⟩

theorem State.quietPoints_of_input {s t : State} (h : t.input = s.input) (hq : s.quietPoints) :
    t.quietPoints := by
  unfold State.quietPoints
  rw [h]
  exact hq

/-- A byte leaves the queue and the stimuli in store alone. -/
theorem syncByte_keeps_queue {b : Byte} {s t : State} {r : Bool} (h : syncByte b s = (r, t)) :
    t.sync.rxFifo = s.sync.rxFifo ∧ t.input = s.input := by
  have ht : t = (syncByte b s).2 := by rw [h]
  subst ht
  exact ⟨syncByte_fifo b s, syncByte_input b s⟩

theorem Scans.keeps_queue {bs : List Byte} {s t : State} (h : Scans bs s t) :
    t.sync.rxFifo = s.sync.rxFifo ∧ t.input = s.input := by
  induction h with
  | nil => exact ⟨rfl, rfl⟩
  | cons hb _ ih =>
    obtain ⟨fifo, input⟩ := syncByte_keeps_queue hb
    exact ⟨ih.1.trans fifo, ih.2.trans input⟩

theorem Completes.keeps_queue {bs : List Byte} {s t : State} (h : Completes bs s t) :
    t.sync.rxFifo = s.sync.rxFifo ∧ t.input = s.input := by
  induction h with
  | last hb => exact syncByte_keeps_queue hb
  | cons hb _ ih =>
    obtain ⟨fifo, input⟩ := syncByte_keeps_queue hb
    exact ⟨ih.1.trans fifo, ih.2.trans input⟩

/-- Where no stimulus is in store, SyncCall takes a first byte that completes no frame and goes on. -/
theorem syncCall_byte {b : Byte} {s t : State} (hq : s.quietPoints) (hb : syncByte b s = (false, t))
    (rest : List Byte) : syncCall (setFifo (b :: rest) s) = syncCall (setFifo rest t) := by
  rw [syncCall_cons (s := setFifo (b :: rest) s) hq b rest rfl, syncByte_setFifo, hb]
  rfl

/-- Where no stimulus is in store, SyncCall takes the bytes that report nothing and goes on. -/
theorem Scans.syncCall_eq {bs : List Byte} {s t : State} (h : Scans bs s t) (hq : s.quietPoints)
    (rest : List Byte) : syncCall (setFifo (bs ++ rest) s) = syncCall (setFifo rest t) := by
  induction h with
  | nil => rfl
  | cons hb _ ih =>
    have hq' := State.quietPoints_of_input (syncByte_keeps_queue hb).2 hq
    exact (syncCall_byte hq hb _).trans (ih hq')

/-- Where no stimulus is in store, SyncCall stops at the byte that completes a frame and leaves the rest
queued (40_serial_link.md R116). -/
theorem Completes.syncCall_eq {bs : List Byte} {s t : State} (h : Completes bs s t)
    (hq : s.quietPoints) (rest : List Byte) :
    syncCall (setFifo (bs ++ rest) s) = (true, setFifo rest t) := by
  induction h with
  | @last b s t hb =>
    rw [List.singleton_append, syncCall_cons (s := setFifo (b :: rest) s) hq b rest rfl,
      syncByte_setFifo, hb]
    rfl
  | cons hb _ ih =>
    have hq' := State.quietPoints_of_input (syncByte_keeps_queue hb).2 hq
    exact (syncCall_byte hq hb _).trans (ih hq')

/-! ### A byte stream in chunks -/

theorem feedCalls_cons (chunk : List Byte) (chunks : List (List Byte)) (s : State) :
    feedCalls (chunk :: chunks) s =
      let r := syncCall (setFifo (s.sync.rxFifo ++ chunk) s)
      let q := feedCalls chunks r.2
      (r.1 :: q.1, q.2) := rfl

/-- Calls with nothing queued and nothing arriving report nothing. -/
theorem feedCalls_empty {chunks : List (List Byte)} {s : State} (hq : s.quietPoints)
    (hf : s.sync.rxFifo = []) (hc : chunks.flatten = []) :
    ∃ reports, feedCalls chunks s = (reports, s) ∧ reports.count true = 0 := by
  induction chunks with
  | nil => exact ⟨[], rfl, rfl⟩
  | cons chunk chunks ih =>
    rw [List.flatten_cons, List.append_eq_nil_iff] at hc
    obtain ⟨rfl, hc⟩ := hc
    obtain ⟨reports, hr, hn⟩ := ih hc
    refine ⟨false :: reports, ?_, by simpa using hn⟩
    rw [feedCalls_cons, List.append_nil, setFifo_self, syncCall_nil hq hf]
    dsimp only
    rw [hr]

/-- A frame in any chunks is reported by exactly one of the calls (40_serial_link.md R119). -/
theorem Completes.feedCalls_eq {chunks : List (List Byte)} {s t : State}
    (h : Completes chunks.flatten s t) (hq : s.quietPoints) (hf : s.sync.rxFifo = []) :
    ∃ reports, feedCalls chunks s = (reports, t) ∧ reports.count true = 1 := by
  induction chunks generalizing s with
  | nil => cases h
  | cons chunk chunks ih =>
    rw [List.flatten_cons] at h
    have call : feedCalls (chunk :: chunks) s =
        let r := syncCall (setFifo (chunk ++ []) s)
        let q := feedCalls chunks r.2
        (r.1 :: q.1, q.2) := by
      rw [feedCalls_cons, hf, List.nil_append, List.append_nil]
    rcases h.split with ⟨u, hu, hrest⟩ | ⟨hchunk, hrest⟩
    · obtain ⟨fifo, input⟩ := hu.keeps_queue
      have hqu : u.quietPoints := State.quietPoints_of_input input hq
      have hfu : u.sync.rxFifo = [] := fifo.trans hf
      obtain ⟨reports, hr, hn⟩ := ih hrest hqu hfu
      refine ⟨false :: reports, ?_, by simpa using hn⟩
      have self : setFifo [] u = u := by rw [← hfu, setFifo_self]
      rw [call, hu.syncCall_eq hq, self, syncCall_nil hqu hfu]
      dsimp only
      rw [hr]
    · obtain ⟨fifo, input⟩ := hchunk.keeps_queue
      have hqt : t.quietPoints := State.quietPoints_of_input input hq
      have hft : t.sync.rxFifo = [] := fifo.trans hf
      obtain ⟨reports, hr, hn⟩ := feedCalls_empty hqt hft hrest
      refine ⟨true :: reports, ?_, by simpa using hn⟩
      have self : setFifo [] t = t := by rw [← hft, setFifo_self]
      rw [call, hchunk.syncCall_eq hq, self]
      dsimp only
      rw [hr]

/-! ### A whole status frame -/

/-- The first bytes from `bs`, the others from `q`. -/
def Quad.overlay (q : Quad) (bs : List Byte) : Quad where
  b0 := bs[0]?.getD q.b0
  b1 := bs[1]?.getD q.b1
  b2 := bs[2]?.getD q.b2
  b3 := bs[3]?.getD q.b3

theorem Quad.get_overlay (q : Quad) (bs : List Byte) {k : Nat} (hk : k < 4) :
    (q.overlay bs).get k = bs[k]?.getD (q.get k) := by
  interval_cases k <;> rfl

/-- A payload byte stored behind the bytes before it. -/
theorem Quad.overlay_set (q : Quad) (bs : List Byte) (b : Byte) (h : bs.length < 4) :
    (q.overlay bs).set bs.length b = q.overlay (bs ++ [b]) := by
  refine Quad.ext_of_get fun k hk => ?_
  rw [Quad.get_set _ _ _ _ h hk, Quad.get_overlay _ _ hk, Quad.get_overlay _ _ hk]
  rcases Nat.lt_trichotomy k bs.length with lt | rfl | gt
  · rw [if_neg (by omega), List.getElem?_append_left lt]
  · simp
  · rw [if_neg (by omega), List.getElem?_eq_none (by omega), List.getElem?_eq_none (by simp; omega)]

/-- A copy of the bytes of a payload from a buffer that holds them (40_serial_link.md R117). -/
theorem Quad.copyFirst_overlay (q buf : Quad) (bs : List Byte) :
    q.copyFirst (buf.overlay bs) bs.length = q.overlay bs := by
  refine Quad.ext_of_get fun k hk => ?_
  rw [Quad.get_copyFirst _ _ _ _ hk, Quad.get_overlay _ _ hk, Quad.get_overlay _ _ hk]
  split
  · next h => simp [h]
  · next h => rw [List.getElem?_eq_none (by omega)]; rfl

/-- Inside a frame of length `n`, the payload bytes `bs` taken. -/
def collecting (n : Nat) (bs : List Byte) (s : State) : State :=
  s.withSync { s.sync with
    state := .collect, len := BitVec.ofNat 3 n, count := BitVec.ofNat 3 (bs.length + 1)
    buf := s.sync.buf.overlay bs }

/-- A whole frame taken: the payload stands in the buffer and is the snapshot, the link is ready, the
scan starts anew (40_serial_link.md R117). -/
def frameTaken (payload : List Byte) (s : State) : State :=
  { s with
    sync := { s.sync with
      state := .awaitM1, len := BitVec.ofNat 3 payload.length, count := 0
      buf := s.sync.buf.overlay payload }
    link := { s.link with ready := true, cur := s.link.cur.overlay payload } }

/-- The three magic bytes, from the first state of the scan (40_serial_link.md R112, R113). -/
theorem magic_scans {s : State} (h : s.sync.state = .awaitM1) :
    Scans [magic0, magic1, magic2] s (s.withSync { s.sync with state := .collect, count := 0 }) :=
  .cons (syncByte_awaitM1 magic0 h) (.cons (syncByte_awaitM2 magic1 rfl)
    (.cons (syncByte_awaitM3 magic2 rfl) (.nil _)))

/-- One payload byte of a frame still short of its length. -/
theorem syncByte_collecting {n : Nat} {bs : List Byte} (b : Byte) (s : State) (h : bs.length < n)
    (h4 : n ≤ 4) :
    syncByte b (collecting n bs s) =
      if bs.length + 1 = n then (true, frameTaken (bs ++ [b]) s)
      else (false, collecting n (bs ++ [b]) s) := by
  have count : (BitVec.ofNat 3 (bs.length + 1)).toNat = bs.length + 1 := by
    rw [BitVec.toNat_ofNat]
    omega
  have counted : (collecting n bs s).sync.count ≠ 0 := by
    intro e
    have := congrArg BitVec.toNat e
    rw [show (collecting n bs s).sync.count = BitVec.ofNat 3 (bs.length + 1) from rfl, count] at this
    simp at this
  have store : storePayload b (collecting n bs s) = collecting n (bs ++ [b]) s := by
    unfold storePayload collecting
    simp only [State.withSync_sync, State.withSync_withSync, count, Nat.add_sub_cancel,
      Quad.overlay_set s.sync.buf bs b (by omega), List.length_append, List.length_singleton]
    rw [BitVec.ofNat_add (bs.length + 1) 1]
    rfl
  split
  · next last =>
    rw [syncByte_payload_last rfl counted (by rw [← last]; rfl), store]
    subst last
    have len : (BitVec.ofNat 3 (bs.length + 1)).toNat = (bs ++ [b]).length := by
      rw [count, List.length_append, List.length_singleton]
    have copy := Quad.copyFirst_overlay s.link.cur s.sync.buf (bs ++ [b])
    rw [← len] at copy
    unfold frameTaken
    rw [← copy, List.length_append, List.length_singleton]
    rfl
  · next more =>
    have short : (collecting n bs s).sync.count ≠ (collecting n bs s).sync.len := by
      intro e
      have := congrArg BitVec.toNat e
      rw [show (collecting n bs s).sync.count = BitVec.ofNat 3 (bs.length + 1) from rfl, count,
        show (collecting n bs s).sync.len = BitVec.ofNat 3 n from rfl, BitVec.toNat_ofNat] at this
      omega
    rw [syncByte_payload rfl counted short, store]

/-- The rest of a payload completes the frame. -/
theorem payload_completes {n : Nat} (bs : List Byte) {rest : List Byte} (s : State)
    (hn : bs.length + rest.length = n) (h4 : n ≤ 4) (hr : rest ≠ []) :
    Completes rest (collecting n bs s) (frameTaken (bs ++ rest) s) := by
  induction rest generalizing bs with
  | nil => exact absurd rfl hr
  | cons b rest ih =>
    rw [List.length_cons] at hn
    have step := syncByte_collecting b s (bs := bs) (n := n) (by omega) h4
    cases rest with
    | nil => exact .last (by rw [step, if_pos (by simpa using hn)])
    | cons c rest =>
      rw [List.length_cons] at hn
      rw [if_neg (by omega)] at step
      have tail := ih (bs ++ [b]) (by simp; omega) (List.cons_ne_nil _ _)
      rw [List.append_assoc] at tail
      exact .cons step tail

/-- A whole status frame from the first state of the scan (40_serial_link.md R112 to R117). -/
theorem statusFrame_completes {payload : List Byte} {s : State} (h : s.sync.state = .awaitM1)
    (hp : payload.length ≤ 4) : Completes (statusBytes payload) s (frameTaken payload s) := by
  have magic := magic_scans h
  cases payload with
  | nil => exact magic.completes (.last (syncByte_length_zero rfl rfl))
  | cons b bs =>
    have size : (BitVec.ofNat 8 (b :: bs).length).toNat = (b :: bs).length := by
      rw [BitVec.toNat_ofNat]
      omega
    have some : BitVec.ofNat 8 (b :: bs).length ≠ 0 := by
      intro e
      rw [e] at size
      cases size
    have length := syncByte_length
      (s := s.withSync { s.sync with state := .collect, count := 0 }) rfl rfl some (by rwa [size])
    rw [size] at length
    exact magic.completes (.cons length
      (payload_completes [] s (Nat.zero_add _) hp (List.cons_ne_nil _ _)))

/-- An oversized frame is dropped at its length byte (40_serial_link.md R114). -/
theorem oversized_scans {b : Byte} {s : State} (h : s.sync.state = .awaitM1) (hb : 4 < b.toNat) :
    Scans [magic0, magic1, magic2, b] s (s.withSync { s.sync with count := 0 }) := by
  have drop := syncByte_oversized
    (s := s.withSync { s.sync with state := .collect, count := 0 }) rfl rfl hb
  have scan := (magic_scans h).append (.cons drop (.nil _))
  rw [State.withSync_withSync, State.withSync_sync, ← h] at scan
  exact scan

/-- Settles O31: a frame completes once whatever the chunks, an oversized one is scanned over. -/
theorem statusFrameReportedOnce : Obligations.StatusFrameReportedOnce := by
  unfold Obligations.StatusFrameReportedOnce
  intro s hq h
  refine ⟨fun payload chunks hp hf hc => ?_, fun b rest hb hf => ?_⟩
  · have frame := statusFrame_completes h hp
    have chunked : Completes chunks.flatten s (frameTaken payload s) := by
      rw [hc]
      exact frame
    obtain ⟨reports, hr, once⟩ := chunked.feedCalls_eq hq hf
    exact ⟨reports, _, hr, once, fun k hk => Quad.get_overlay _ _ hk, rfl, rfl, hf⟩
  · have queued : s = setFifo ([magic0, magic1, magic2, b] ++ rest) s := by
      rw [← setFifo_self s, hf]
      rfl
    calc syncCall s = syncCall (setFifo ([magic0, magic1, magic2, b] ++ rest) s) :=
          congrArg syncCall queued
      _ = _ := (oversized_scans h hb).syncCall_eq hq rest

end Sys2Proof.Machine
end

section
/-! PROOF. Frames of the poll agent: the command rows where no stimulus is in store (40_serial_link.md
R121, R130; 42_mode_fsm.md R226, R243, R246, R254), and a frame interrupted by whole stimuli (R121, R125). -/

namespace Sys2Proof.Machine

/-- Settles O25: where no stimulus is in store, every row's send is its six bytes in a row. -/
theorem commandRowsSendTheirFrames : Obligations.CommandRowsSendTheirFrames := by
  unfold Obligations.CommandRowsSendTheirFrames
  intro s hq
  have send := sendFramePoll_quiet hq
  have block : ∀ p, Host.Outcome.next (φ := Fault) (ρ := Refusal) (armBlock (sendFramePoll p s)) =
      .next { (afterOffer s (frameBytes p)) with fsm := { s.fsm with tBlock := ⟨true, s.now⟩ } } :=
    fun p => by rw [send]; rfl
  have echo : ∀ p, Host.Outcome.next (φ := Fault) (ρ := Refusal) (armEcho (sendFramePoll p s)) =
      .next { (afterOffer s (frameBytes p)) with link := { s.link with tEcho := ⟨true, s.now⟩ } } :=
    fun p => by rw [send]; rfl
  refine ⟨fun c d => congrArg Host.Outcome.next (send ⟨c, d⟩), congrArg Host.Outcome.next ?_,
    congrArg Host.Outcome.next (send _), block _, block _, block _, block _, echo _, echo _,
    congrArg Host.Outcome.next ?_⟩
  · exact sendFramePoll_quiet (s := s.withLink { s.link with tReq := Timer.arm s.now }) hq _
  · rw [issueFactoryReset, send]
    rfl

/-! ### What is in store for the interrupt points -/

/-- Every stimulus in store for the coming interrupt points has the property. -/
def State.inStore (P : IpStim → Prop) (s : State) : Prop := ∀ is ∈ s.input.ipSched, ∀ i ∈ is, P i

theorem State.inStore_of_input {P : IpStim → Prop} {s t : State} (h : t.input = s.input)
    (hs : s.inStore P) : t.inStore P := by
  unfold State.inStore
  rw [h]
  exact hs

theorem interruptPoint_inStore {P : IpStim → Prop} {s : State} (h : s.inStore P) :
    (interruptPoint s).inStore P := by
  intro is his
  rw [interruptPoint_sched] at his
  exact h is (List.mem_of_mem_tail his)

/-- A relation that a stimulus in store keeps, an interrupt point keeps. -/
theorem interruptPoint_rel {R : State → State → Prop} {P : IpStim → Prop} (refl : ∀ s, R s s)
    (trans : ∀ {s t u}, R s t → R t u → R s u) (input : ∀ s v, R s (s.withInput v))
    (stim : ∀ i s, P i → R s (runIpStim i s)) {s : State} (h : s.inStore P) :
    R s (interruptPoint s) := by
  have stims : ∀ (is : List IpStim) (t : State), (∀ i ∈ is, P i) → R t (runIpStims is t) := by
    intro is
    induction is with
    | nil => exact fun t _ => refl t
    | cons i is ih =>
      intro t hi
      exact trans (stim i t (hi i List.mem_cons_self))
        (ih _ fun j hj => hi j (List.mem_cons_of_mem i hj))
  unfold interruptPoint
  split
  · exact refl s
  · next is rest hsched =>
    exact trans (input s _) (stims is _ (h is (by rw [hsched]; exact List.mem_cons_self)))

/-! ### The serial output while other stimuli run -/

/-- What the sink has taken stands, and the drop counter is not raised. -/
structure TxGrows (s t : State) : Prop where
  log : ∃ bs, t.io.txLog = s.io.txLog ++ bs
  drop : t.io.envTxDrop ≤ s.io.envTxDrop

theorem TxGrows.of_eq {s t : State} (hl : t.io.txLog = s.io.txLog)
    (hd : t.io.envTxDrop = s.io.envTxDrop) : TxGrows s t :=
  ⟨⟨[], by rw [hl, List.append_nil]⟩, hd.le⟩

theorem TxGrows.refl (s : State) : TxGrows s s := .of_eq rfl rfl

theorem TxGrows.trans {s t u : State} (h : TxGrows s t) (k : TxGrows t u) : TxGrows s u := by
  obtain ⟨bs, hb⟩ := h.log
  obtain ⟨cs, hc⟩ := k.log
  exact ⟨⟨bs ++ cs, by rw [hc, hb, List.append_assoc]⟩, k.drop.trans h.drop⟩

theorem afterOffer_txGrows (s : State) (bs : List Byte) : TxGrows s (afterOffer s bs) :=
  ⟨⟨acceptedBytes s bs, rfl⟩, Nat.sub_le _ _⟩

theorem rawStore_txGrows (i : Byte) (s : State) : TxGrows s (rawStore i s) := by
  unfold rawStore
  split
  · exact .refl s
  · split
    · rw [State.regWrite_eq]
      exact .of_eq rfl rfl
    · exact .of_eq rfl rfl

theorem routeAction_txGrows (i : Byte) (s : State) : TxGrows s (routeAction i s) := by
  obtain ⟨bs, h⟩ | ⟨v, h⟩ := routeAction_cases i s
  · rw [h]
    exact afterOffer_txGrows s bs
  · rw [h]
    exact .of_eq rfl rfl

theorem route_txGrows (s : State) : TxGrows s (route s) := by
  unfold route
  split
  · exact .refl s
  · exact (rawStore_txGrows _ s).trans (routeAction_txGrows _ _)

theorem partialRecord_txGrows (s : State) : TxGrows s (partialRecord s) := by
  unfold partialRecord
  split
  · have counted : TxGrows s (s.withBus { s.bus with lastRxCount := s.bus.rxCount }) := .of_eq rfl rfl
    exact counted.trans (route_txGrows _)
  · exact .of_eq rfl rfl

theorem busWrite_txGrows (b : Byte) (s : State) : TxGrows s (busWrite b s) := by
  unfold busWrite
  split
  · dsimp only
    split
    · exact .of_eq rfl rfl
    · have stored : TxGrows s ((storeRecByte b s).logAck false) := .of_eq rfl rfl
      exact (stored.trans (route_txGrows _)).trans (.of_eq rfl rfl)
  · exact .of_eq rfl rfl

theorem busRead_txGrows (s : State) : TxGrows s (busRead s) := by
  unfold busRead
  split
  · rw [State.afterRegRead_eq]
    exact .of_eq rfl rfl
  · exact .of_eq rfl rfl

theorem busStop_txGrows (p : Bool) (s : State) : TxGrows s (busStop p s) := by
  unfold busStop
  split
  · exact (partialRecord_txGrows s).trans (.of_eq rfl rfl)
  · exact .of_eq rfl rfl

theorem busAckFail_txGrows (s : State) : TxGrows s (busAckFail s) := by
  unfold busAckFail
  split
  · exact (partialRecord_txGrows s).trans (.of_eq rfl rfl)
  · exact .of_eq rfl rfl
  · exact .refl s
  · exact .refl s

theorem receiveByte_txGrows (b : Byte) (s : State) : TxGrows s (receiveByte b s) := by
  unfold receiveByte
  split
  · exact .of_eq rfl rfl
  · exact .refl s

/-- A stimulus but TXDROP only adds to what the sink has taken. -/
theorem runIpStim_txGrows (i : IpStim) (s : State) (h : ∀ n, i ≠ .txdrop n) :
    TxGrows s (runIpStim i s) := by
  cases i with
  | txdrop n => exact absurd rfl (h n)
  | bwr b => exact busWrite_txGrows b s
  | brd => exact busRead_txGrows s
  | bstop p => exact busStop_txGrows p s
  | baf => exact busAckFail_txGrows s
  | rxb b => exact receiveByte_txGrows b s
  | tick | tick100 | post | scan | baddrw | baddrr | berr => exact .of_eq rfl rfl

theorem interruptPoint_txGrows {s : State} (h : s.inStore fun i => ∀ n, i ≠ .txdrop n) :
    TxGrows s (interruptPoint s) :=
  interruptPoint_rel .refl .trans (fun _ _ => .of_eq rfl rfl) runIpStim_txGrows h

/-! ### An interrupted frame -/

/-- In a script where nothing is dropped, the bytes of a frame are taken in their order, whatever comes
between them. -/
theorem emitAllPoll_sublist (bs : List Byte) {s : State} (hs : s.scripted = true)
    (hd : s.io.envTxDrop = 0) (h : s.inStore fun i => ∀ n, i ≠ .txdrop n) :
    ∃ cs, (emitAllPoll bs s).io.txLog = s.io.txLog ++ cs ∧ bs.Sublist cs := by
  induction bs generalizing s with
  | nil => exact ⟨[], (List.append_nil _).symm, .slnil⟩
  | cons b bs ih =>
    have grows := interruptPoint_txGrows h
    obtain ⟨between, log⟩ := grows.log
    have script : (interruptPoint s).scripted = true := (interruptPoint_safe s).scripted.trans hs
    have noDrop : (interruptPoint s).io.envTxDrop = 0 := Nat.le_zero.mp (hd ▸ grows.drop)
    have byte := emit_eq b (interruptPoint s)
    obtain ⟨cs, rest, inOrder⟩ := ih (s := emit b (interruptPoint s))
      (by rw [byte]; exact script) (by rw [byte]; exact Nat.sub_eq_zero_of_le (by omega))
      (by rw [byte]; exact interruptPoint_inStore h)
    refine ⟨between ++ b :: cs, ?_, (inOrder.cons_cons b).trans (List.sublist_append_right _ _)⟩
    calc (emitAllPoll bs (emit b (interruptPoint s))).io.txLog
        = (interruptPoint s).io.txLog ++ acceptedBytes (interruptPoint s) [b] ++ cs := by
          rw [rest, byte]; rfl
      _ = s.io.txLog ++ (between ++ b :: cs) := by
          rw [acceptedBytes_scripted _ _ script noDrop, log]; simp

/-- Settles O26. -/
theorem interruptedFrameKeepsItsBytes : Obligations.InterruptedFrameKeepsItsBytes := by
  unfold Obligations.InterruptedFrameKeepsItsBytes
  intro c d s hs hd h
  obtain ⟨bs, log, inOrder⟩ := emitAllPoll_sublist (frameBytes ⟨c, d⟩) hs hd h
  exact ⟨_, bs, rfl, log, inOrder, (sendFramePoll_safe ⟨c, d⟩ s).toIpKeeps⟩

/-- Settles O27: the POLL of the spec's interleaving, run. -/
theorem routerFrameInsidePollFrame : Obligations.RouterFrameInsidePollFrame := by
  unfold Obligations.RouterFrameInsidePollFrame
  exact ⟨_, rfl, rfl⟩

end Sys2Proof.Machine
end

section
/-! PROOF. The companion link: the status request (40_serial_link.md R130), the first differing snapshot
byte (R131), and the reaction to each of the four (R132 to R135). -/

namespace Sys2Proof.Machine

/-! ### The status request -/

/-- Settles O32: the two ways the request's timer counts as expired (00_scope.md R12). -/
theorem statusRequestWhenDue : Obligations.StatusRequestWhenDue := by
  unfold Obligations.StatusRequestWhenDue
  intro s
  refine ⟨elapsed s.cfg s.now s.link.tReq, rfl, fun due => if_pos ?_, fun armed early => if_neg ?_⟩
  · simpa [expired] using due
  · simpa [expired, armed] using early

/-! ### The reactions -/

/-- A register-file write of the poll agent, by its interrupt point. -/
theorem regWritePoll_eq (i : Fin 12) (v : Byte) (s : State) :
    regWritePoll i v s = (interruptPoint s).withMem ((interruptPoint s).mem.write i.val v) :=
  State.regWrite_storage _ _ _

theorem interruptPoint_cfg (s : State) : (interruptPoint s).cfg = s.cfg := (interruptPoint_safe s).cfg

theorem interruptPoint_link (s : State) : (interruptPoint s).link = s.link :=
  (interruptPoint_safe s).link

/-- R132, whatever is run at its interrupt point. -/
theorem react0_eq (s : State) :
    react0 s = { interruptPoint s with
      mem := (interruptPoint s).mem.write s.cfg.regWifiBt.val s.link.cur.b0
      link := { s.link with prev := { s.link.prev with b0 := s.link.cur.b0 } } } := by
  rw [react0, regWritePoll_eq, ← interruptPoint_link s]
  rfl

/-- R135, whatever is run at its interrupt point. -/
theorem react3_eq (s : State) :
    react3 s = { interruptPoint s with
      mem := (interruptPoint s).mem.write s.cfg.regError.val s.link.cur.b3
      link := { s.link with prev := { s.link.prev with b3 := s.link.cur.b3 } } } := by
  rw [react3, regWritePoll_eq, ← interruptPoint_link s]
  rfl

/-- The state in which the second interrupt point of R133 stands: the mode mirror is written. -/
def modeMirrored (s : State) : State :=
  { interruptPoint s with
    mem := (interruptPoint s).mem.write s.cfg.regMode.val
      ((modeNibOf s.cfg s.link.cur.b1).zeroExtend 8) }

theorem modeEventDue_withMem (s : State) (m : Memory) :
    modeEventDue (s.withMem m) = modeEventDue s := rfl

theorem modeEventDue_iff (s : State) : modeEventDue s = true ↔
    modeNibOf s.cfg s.link.cur.b1 ≠ modeNibOf s.cfg s.link.prev.b1 ∧
      s.cfg.fsControlModeFromModule = true ∧ inWifiSetup s.cfg s.link.cur = false := by
  simp [modeEventDue, and_assoc]

/-- R133, whatever is run at its two interrupt points. -/
theorem react1_eq (s : State) :
    react1 s = { interruptPoint (modeMirrored s) with
      mem := (interruptPoint (modeMirrored s)).mem.write s.cfg.regSpotify.val
        ((spotifyNibOf s.cfg s.link.cur.b1).zeroExtend 8)
      fsm := { (interruptPoint (modeMirrored s)).fsm with
        event :=
          if modeNibOf s.cfg s.link.cur.b1 ≠ modeNibOf s.cfg s.link.prev.b1 ∧
            s.cfg.fsControlModeFromModule = true ∧ inWifiSetup s.cfg s.link.cur = false
          then 0x04 else (interruptPoint (modeMirrored s)).fsm.event }
      link := { s.link with prev := { s.link.prev with b1 := s.link.cur.b1 } } } := by
  have mirror : regWritePoll s.cfg.regMode ((modeNibOf s.cfg s.link.cur.b1).zeroExtend 8) s =
      modeMirrored s := regWritePoll_eq _ _ s
  have cfg : (modeMirrored s).cfg = s.cfg := interruptPoint_cfg s
  have link : (modeMirrored s).link = s.link := interruptPoint_link s
  unfold react1
  dsimp only
  rw [mirror, regWritePoll_eq, cfg, link]
  generalize hu : interruptPoint (modeMirrored s) = u
  have cfgU : u.cfg = s.cfg := by rw [← hu, interruptPoint_cfg, cfg]
  have linkU : u.link = s.link := by rw [← hu, interruptPoint_link, link]
  rw [← cfgU, ← linkU]
  simp only [modeEventDue_withMem, modeEventDue_iff]
  split
  · rfl
  · rfl

/-- The mute and volume bits of a byte make up the byte (30_encoding.md R85). -/
theorem convert_mute_vol (b : Byte) : convert (muteOf b) (volOf b) = b := by
  ext i hi
  unfold convert muteOf volOf
  rw [BitVec.getElem_append]
  split
  · next low => simp [BitVec.getLsbD_eq_getElem hi]
  · next high =>
    obtain rfl : i = 7 := by omega
    simp

/-- What the reported volume does, once mirrored (40_serial_link.md R134). -/
theorem applyModuleVolume_eq (v : BitVec 7) (s : State) :
    applyModuleVolume v s = { s with
      fsm := { s.fsm with
        volume := v, event := if s.link.volInFlight then s.fsm.event else 0x07 }
      link := { s.link with volInFlight := true } } := by
  unfold applyModuleVolume
  dsimp only
  split
  · next h =>
    have h' : s.link.volInFlight = true := h
    rw [if_pos h', ← h']
    rfl
  · next h =>
    have h' : ¬ s.link.volInFlight = true := h
    rw [if_neg h']
    rfl

/-- R134, whatever is run at its interrupt point. -/
theorem react2_eq (s : State) :
    react2 s =
      if running s.cfg (interruptPoint s).now s.link.tEcho s.cfg.volEchoMs then { interruptPoint s with
        mem := (interruptPoint s).mem.write s.cfg.regVolumeMute.val s.link.cur.b2
        link := { s.link with prev := { s.link.prev with b2 := s.link.cur.b2 } } }
      else { interruptPoint s with
        mem := (interruptPoint s).mem.write s.cfg.regVolumeMute.val s.link.cur.b2
        fsm := { (interruptPoint s).fsm with
          volume := s.link.cur.b2.extractLsb' 0 7
          event := if s.link.volInFlight then (interruptPoint s).fsm.event else 0x07 }
        link := { s.link with
          volInFlight := true, prev := { s.link.prev with b2 := s.link.cur.b2 } } } := by
  unfold react2
  dsimp only
  rw [convert_mute_vol, regWritePoll_eq, applyModuleVolume_eq]
  have cfg := interruptPoint_cfg s
  have link := interruptPoint_link s
  generalize interruptPoint s = t at cfg link
  rw [← cfg, ← link]
  by_cases window : running t.cfg t.now t.link.tEcho t.cfg.volEchoMs = true
  · rw [if_pos window, if_pos]
    · rfl
    · exact window
  · rw [if_neg window, if_neg]
    · rfl
    · exact window

/-- Settles O34. -/
theorem modeAndVolumeReactions : Obligations.ModeAndVolumeReactions := by
  unfold Obligations.ModeAndVolumeReactions
  exact fun s => ⟨⟨_, _, rfl, rfl, react1_eq s⟩, _, rfl, react2_eq s⟩

/-! ### The first differing byte -/

section
variable {s : State}

theorem diff_b0 (h0 : s.link.cur.b0 ≠ s.link.prev.b0) : diff s = react0 s := if_pos h0

theorem diff_b1 (h0 : s.link.cur.b0 = s.link.prev.b0) (h1 : s.link.cur.b1 ≠ s.link.prev.b1) :
    diff s = react1 s := by
  rw [diff, if_neg (not_not.mpr h0), if_pos h1]

theorem diff_b2 (h0 : s.link.cur.b0 = s.link.prev.b0) (h1 : s.link.cur.b1 = s.link.prev.b1)
    (h2 : s.link.cur.b2 ≠ s.link.prev.b2) : diff s = react2 s := by
  rw [diff, if_neg (not_not.mpr h0), if_neg (not_not.mpr h1), if_pos h2]

theorem diff_b3 (h0 : s.link.cur.b0 = s.link.prev.b0) (h1 : s.link.cur.b1 = s.link.prev.b1)
    (h2 : s.link.cur.b2 = s.link.prev.b2) (h3 : s.link.cur.b3 ≠ s.link.prev.b3) :
    diff s = react3 s := by
  rw [diff, if_neg (not_not.mpr h0), if_neg (not_not.mpr h1), if_neg (not_not.mpr h2), if_pos h3]

theorem diff_same (h0 : s.link.cur.b0 = s.link.prev.b0) (h1 : s.link.cur.b1 = s.link.prev.b1)
    (h2 : s.link.cur.b2 = s.link.prev.b2) (h3 : s.link.cur.b3 = s.link.prev.b3) : diff s = s := by
  rw [diff, if_neg (not_not.mpr h0), if_neg (not_not.mpr h1), if_neg (not_not.mpr h2),
    if_neg (not_not.mpr h3)]

end

/-- Settles O33. -/
theorem diffActsOnFirstDifference : Obligations.DiffActsOnFirstDifference := by
  unfold Obligations.DiffActsOnFirstDifference
  intro s
  refine ⟨_, rfl, fun h0 => (diff_b0 h0).trans (react0_eq s), diff_b1, diff_b2,
    fun h0 h1 h2 h3 => (diff_b3 h0 h1 h2 h3).trans (react3_eq s), fun h => ?_⟩
  exact diff_same (by rw [h]) (by rw [h]) (by rw [h]) (by rw [h])

end Sys2Proof.Machine
end

section
/-! PROOF. What the writes of a POLL are, whatever is run at its interrupt points, and from it: the
snapshots and the FIFO the dispatcher leaves alone, the one byte that catches up in a POLL
(40_serial_link.md R131, R136), the frame a POLL takes (R129 to R135), and the tick that only tick stimuli
move (R152). -/

namespace Sys2Proof.Machine

/-! ### The elementary writes of the poll agent -/

/-- One write of the poll agent: an interrupt point, bytes offered, the register file, the mode machine's
variables, or a write of the link that `L` admits. -/
inductive PollWrite (L : Link → Link → Prop) : State → State → Prop
  | point (s : State) : PollWrite L s (interruptPoint s)
  | offer (s : State) (bs : List Byte) : PollWrite L s (afterOffer s bs)
  | mem (s : State) (v : Memory) : PollWrite L s (s.withMem v)
  | fsm (s : State) (v : Fsm) : PollWrite L s (s.withFsm v)
  | link (s : State) (v : Link) : L s.link v → PollWrite L s (s.withLink v)

/-- Several writes of the poll agent. -/
abbrev PollWrites (L : Link → Link → Prop) := Relation.ReflTransGen (PollWrite L)

/-- What the dispatcher leaves of the link: the snapshots, and where it does not await a factory reset
(`awaits`) the readiness too (42_mode_fsm.md R243). -/
structure LinkKept (awaits : Prop) (l k : Link) : Prop where
  cur : k.cur = l.cur
  prev : k.prev = l.prev
  ready : ¬ awaits → k.ready = l.ready

theorem LinkKept.refl (awaits : Prop) (l : Link) : LinkKept awaits l l := ⟨rfl, rfl, fun _ => rfl⟩

theorem LinkKept.trans {awaits : Prop} {l k j : Link} (h : LinkKept awaits l k)
    (g : LinkKept awaits k j) : LinkKept awaits l j :=
  ⟨g.cur.trans h.cur, g.prev.trans h.prev, fun n => (g.ready n).trans (h.ready n)⟩

/-- Neither TICK nor TICK100. -/
def NoTick (i : IpStim) : Prop := (∀ n, i ≠ .tick n) ∧ ∀ n, i ≠ .tick100 n

theorem runIpStim_now (i : IpStim) (s : State) (h : NoTick i) : (runIpStim i s).now = s.now := by
  cases i with
  | tick n => exact absurd rfl (h.1 n)
  | tick100 n => exact absurd rfl (h.2 n)
  | rxb b => exact congrArg (·.now) (receiveBytes_eq [b] s)
  | post | scan | txdrop => rfl
  | baddrw => exact (busAddrW_safe s).now
  | baddrr => exact (busAddrR_safe s).now
  | bwr b => exact (busWrite_safe b s).now
  | brd => exact (busRead_safe s).now
  | bstop p => exact (busStop_safe p s).now
  | baf => exact (busAckFail_safe s).now
  | berr => exact (busError_safe s).now

theorem interruptPoint_now {s : State} (h : s.inStore NoTick) : (interruptPoint s).now = s.now :=
  interruptPoint_rel (R := fun s t => t.now = s.now) (fun _ => rfl) (fun h k => k.trans h)
    (fun _ _ => rfl) runIpStim_now h

section
variable {L : Link → Link → Prop} {s t : State}

theorem PollWrite.link_rel (h : PollWrite L s t) (refl : ∀ l, L l l) : L s.link t.link := by
  cases h with
  | point => rw [interruptPoint_link]; exact refl _
  | link v hv => exact hv
  | offer | mem | fsm => exact refl _

/-- Where no stimulus is in store, the poll agent's writes leave the synchronizer alone. -/
theorem PollWrite.quiet (h : PollWrite L s t) (hq : s.quietPoints) :
    t.quietPoints ∧ t.sync = s.sync := by
  cases h with
  | point => rw [interruptPoint_quiet hq]; exact ⟨hq, rfl⟩
  | offer | mem | fsm | link => exact ⟨hq, rfl⟩

/-- Where no tick is in store, the poll agent's writes do not move the tick. -/
theorem PollWrite.now (h : PollWrite L s t) (hn : s.inStore NoTick) :
    t.inStore NoTick ∧ t.now = s.now := by
  cases h with
  | point => exact ⟨interruptPoint_inStore hn, interruptPoint_now hn⟩
  | offer | mem | fsm | link => exact ⟨hn, rfl⟩

theorem PollWrites.link_rel (h : PollWrites L s t) (refl : ∀ l, L l l)
    (trans : ∀ {l k j}, L l k → L k j → L l j) : L s.link t.link := by
  induction h with
  | refl => exact refl _
  | tail _ last ih => exact trans ih (last.link_rel refl)

theorem PollWrites.quiet (h : PollWrites L s t) (hq : s.quietPoints) :
    t.quietPoints ∧ t.sync = s.sync := by
  induction h with
  | refl => exact ⟨hq, rfl⟩
  | tail _ last ih =>
    obtain ⟨quiet, sync⟩ := last.quiet ih.1
    exact ⟨quiet, sync.trans ih.2⟩

theorem PollWrites.now (h : PollWrites L s t) (hn : s.inStore NoTick) :
    t.inStore NoTick ∧ t.now = s.now := by
  induction h with
  | refl => exact ⟨hn, rfl⟩
  | tail _ last ih =>
    obtain ⟨noTick, now⟩ := last.now ih.1
    exact ⟨noTick, now.trans ih.2⟩

end

/-! ### The operations of a POLL as such writes -/

section
variable {L : Link → Link → Prop}

theorem withFsm_writes (s : State) (v : Fsm) : PollWrites L s (s.withFsm v) := .single (.fsm s v)

theorem regWrite_writes (s : State) (i : Nat) (v : Byte) : PollWrites L s (s.regWrite i v) := by
  rw [State.regWrite_eq]
  exact .single (.mem s _)

theorem regWritePoll_writes (i : Fin 12) (v : Byte) (s : State) :
    PollWrites L s (regWritePoll i v s) := (.head (.point s) (regWrite_writes _ _ _))

theorem sendFramePoll_writes (p : CmdPair) (s : State) : PollWrites L s (sendFramePoll p s) := by
  unfold sendFramePoll
  generalize frameBytes p = bs
  induction bs generalizing s with
  | nil => exact .refl
  | cons b bs ih =>
    refine .head (.point s) (.head (.offer _ [b]) ?_)
    rw [← emit_eq]
    exact ih _

theorem setTask_writes (m : Mode) (v : TaskState) (s : State) : PollWrites L s (setTask m v s) :=
  withFsm_writes s _

theorem disarmGrace_writes (s : State) : PollWrites L s (disarmGrace s) := withFsm_writes s _

theorem setDiscLatch_writes (v : Bool) (s : State) : PollWrites L s (setDiscLatch v s) :=
  withFsm_writes s _

theorem setFromModule_writes (v : Bool) (s : State) : PollWrites L s (setFromModule v s) :=
  withFsm_writes s _

theorem stopCommon_writes (s : State) : PollWrites L s (stopCommon s) := withFsm_writes s _

/-- A mode command: its frame, and the blocking timer (42_mode_fsm.md R226). -/
theorem sendThenBlock_writes (p : CmdPair) (s : State) :
    PollWrites L s (armBlock (sendFramePoll p s)) :=
  (sendFramePoll_writes p s).trans (withFsm_writes _ _)

theorem setBootReady_writes (s : State) : PollWrites L s (setBootReady s) :=
  .head (.point s) (regWrite_writes _ _ _)

theorem requestMode_writes (t : Mode) (s : State) : PollWrites L s (requestMode t s) := by
  unfold requestMode
  split
  · exact withFsm_writes s _
  · exact .refl

theorem toggle_writes (s : State) : PollWrites L s (toggle s) := by
  unfold toggle
  split
  · exact .refl
  · split
    · split
      · exact .refl
      · exact (withFsm_writes s _).trans (requestMode_writes _ _)
    · exact .refl

theorem moduleMode_writes (s : State) : PollWrites L s (moduleMode s) := by
  unfold moduleMode acceptModuleMode
  split
  · split
    · exact .refl
    · split
      · exact .refl
      · split
        · exact (withFsm_writes s _).trans (requestMode_writes _ _)
        · exact (withFsm_writes s _).trans (requestMode_writes _ _)
  · exact .refl

theorem runEvents_writes (ev : Byte) (s : State) : PollWrites L s (runEvents ev s) := by
  unfold runEvents
  split
  · exact toggle_writes s
  · split
    · exact moduleMode_writes s
    · split
      · exact (withFsm_writes s _).trans (requestMode_writes _ _)
      · exact .refl

theorem bootingFunction_writes (s : State) : PollWrites L s (bootingFunction s) := by
  unfold bootingFunction
  split
  · unfold bootIdle
    split
    · exact withFsm_writes s _
    · exact .refl
  · exact withFsm_writes s _
  · unfold bootRun
    split
    · exact withFsm_writes s _
    · exact .refl
  · exact .refl
  · exact ((setBootReady_writes s).trans (withFsm_writes _ _)).trans (stopCommon_writes _)

theorem btFunction_writes (ev : Byte) (s : State) : PollWrites L s (btFunction ev s) := by
  unfold btFunction
  split
  · exact withFsm_writes s _
  · unfold btInit
    refine .trans ?_ (setTask_writes _ _ _)
    split
    · exact setFromModule_writes false s
    · exact sendThenBlock_writes _ s
  · exact runEvents_writes ev s
  · exact .refl
  · exact withFsm_writes s _

theorem grace_writes (s : State) : PollWrites L s (grace s) := by
  unfold grace
  split
  · exact withFsm_writes s _
  · split
    · split
      · exact (withFsm_writes s _).trans (requestMode_writes _ _)
      · exact .refl
    · exact withFsm_writes s _

theorem spotifyFunction_writes (ev : Byte) (s : State) : PollWrites L s (spotifyFunction ev s) := by
  unfold spotifyFunction
  split
  · exact withFsm_writes s _
  · unfold spotifyInit
    refine .trans ?_ ((disarmGrace_writes _).trans (setTask_writes _ _ _))
    split
    · exact setFromModule_writes false s
    · exact sendThenBlock_writes _ s
  · unfold spotifyRun
    dsimp only
    split
    · exact (grace_writes s).trans (runEvents_writes ev _)
    · exact grace_writes s
  · exact .refl
  · exact withFsm_writes s _

theorem switchWhenOffline_writes (s : State) : PollWrites L s (switchWhenOffline s) := by
  unfold switchWhenOffline
  dsimp only
  refine .trans ?_ (setDiscLatch_writes _ _)
  split
  · exact sendThenBlock_writes _ s
  · exact .refl

theorem netcfgFunction_writes (ev : Byte) (s : State) : PollWrites L s (netcfgFunction ev s) := by
  unfold netcfgFunction
  split
  · exact withFsm_writes s _
  · exact withFsm_writes s _
  · unfold netcfgRun
    split
    · exact withFsm_writes s _
    · exact (switchWhenOffline_writes s).trans (runEvents_writes ev _)
  · unfold netcfgPause
    split
    · exact .refl
    · exact withFsm_writes s _
  · exact withFsm_writes s _

theorem standbyFunction_writes (ev : Byte) (s : State) : PollWrites L s (standbyFunction ev s) := by
  unfold standbyFunction
  split
  · exact withFsm_writes s _
  · exact ((setFromModule_writes false s).trans (sendThenBlock_writes _ _)).trans
      (setTask_writes _ _ _)
  · unfold standbyRun
    split
    · exact withFsm_writes s _
    · exact .refl
  · exact .refl
  · exact withFsm_writes s _

end

section
variable {awaits : Prop}

theorem issueFactoryReset_writes (s : State) (h : awaits) :
    PollWrites (LinkKept awaits) s (issueFactoryReset s) :=
  (sendFramePoll_writes _ s).tail (.link _ _ ⟨rfl, rfl, fun n => absurd h n⟩)

theorem factoryFunction_writes (ev : Byte) (s : State)
    (h : s.fsm.tasks.factoryReset = .init → awaits) :
    PollWrites (LinkKept awaits) s (factoryFunction ev s) := by
  unfold factoryFunction
  split
  · exact withFsm_writes s _
  · next init =>
    exact ((setFromModule_writes false s).trans (issueFactoryReset_writes _ (h init))).trans
      (setTask_writes _ _ _)
  · unfold factoryRun
    split
    · exact withFsm_writes s _
    · split
      · exact toggle_writes s
      · exact .refl
  · exact .refl
  · exact (((withFsm_writes s _).trans (sendFramePoll_writes _ _)).trans (withFsm_writes _ _)).trans
      (stopCommon_writes _)

theorem modeFunction_writes (m : Mode) (ev : Byte) (s : State)
    (h : m = .factoryReset → s.fsm.tasks.factoryReset = .init → awaits) :
    PollWrites (LinkKept awaits) s (modeFunction m ev s) := by
  cases m with
  | idle => exact .refl
  | standby => exact standbyFunction_writes ev s
  | booting => exact bootingFunction_writes s
  | bluetoothA2DP => exact btFunction_writes ev s
  | spotifyConnect => exact spotifyFunction_writes ev s
  | factoryReset => exact factoryFunction_writes ev s (h rfl)
  | networkConfig => exact netcfgFunction_writes ev s

/-- A volume key's frame, and the echo window with it (42_mode_fsm.md R254). -/
theorem sendThenEcho_writes (p : CmdPair) (s : State) :
    PollWrites (LinkKept awaits) s (armEcho (sendFramePoll p s)) :=
  (sendFramePoll_writes p s).tail (.link _ _ ⟨rfl, rfl, fun _ => rfl⟩)

theorem tailEvents_writes (ev : Byte) (s : State) :
    PollWrites (LinkKept awaits) s (tailEvents ev s) := by
  unfold tailEvents
  split
  · exact sendThenEcho_writes _ s
  · split
    · exact sendThenEcho_writes _ s
    · split
      · unfold factoryTrigger
        split
        · exact .refl
        · split
          · exact (withFsm_writes s _).trans (requestMode_writes _ _)
          · exact .refl
      · exact .refl

theorem ackModuleVolume_writes (ev : Byte) (s : State) :
    PollWrites (LinkKept awaits) s (ackModuleVolume ev s) := by
  unfold ackModuleVolume
  split
  · exact .single (.link s _ ⟨rfl, rfl, fun _ => rfl⟩)
  · exact .refl

theorem diagCount_writes (s : State) : PollWrites (LinkKept awaits) s (diagCount s) := by
  unfold diagCount
  dsimp only
  split
  · exact (withFsm_writes s _).trans (regWritePoll_writes _ _ _)
  · exact withFsm_writes s _

theorem tail_writes (m0 : Mode) (ev : Byte) (s : State) :
    PollWrites (LinkKept awaits) s (tail m0 ev s) := by
  unfold tail
  dsimp only
  split
  · exact (ackModuleVolume_writes ev s).trans (diagCount_writes _)
  · exact ((ackModuleVolume_writes ev s).trans (tailEvents_writes ev _)).trans (diagCount_writes _)

/-- What the dispatcher writes (42_mode_fsm.md R212). -/
theorem dispatch_writes (s : State)
    (h : s.fsm.mode = .factoryReset → s.fsm.tasks.factoryReset = .init → awaits) :
    PollWrites (LinkKept awaits) s (dispatch s) :=
  ((modeFunction_writes _ s.fsm.event s h).trans (tail_writes _ _ _)).trans
    (.head (.point _) (withFsm_writes _ _))

end

/-! ### The byte that catches up -/

/-- The previous snapshot `p` stays, or one byte of it becomes that of the current snapshot `c`
(40_serial_link.md R136). -/
def CatchesUp (p c q : Quad) : Prop :=
  q = p ∨ q = { p with b0 := c.b0 } ∨ q = { p with b1 := c.b1 } ∨ q = { p with b2 := c.b2 } ∨
    q = { p with b3 := c.b3 }

theorem react2_link (s : State) : (react2 s).link.cur = s.link.cur ∧
    (react2 s).link.prev = { s.link.prev with b2 := s.link.cur.b2 } := by
  rw [react2_eq]
  split
  · exact ⟨rfl, rfl⟩
  · exact ⟨rfl, rfl⟩

theorem diff_link (s : State) : (diff s).link.cur = s.link.cur ∧
    CatchesUp s.link.prev s.link.cur (diff s).link.prev := by
  unfold diff
  split
  · rw [react0_eq]
    exact ⟨rfl, .inr (.inl rfl)⟩
  · split
    · rw [react1_eq]
      exact ⟨rfl, .inr (.inr (.inl rfl))⟩
    · split
      · obtain ⟨cur, prev⟩ := react2_link s
        exact ⟨cur, .inr (.inr (.inr (.inl prev)))⟩
      · split
        · rw [react3_eq]
          exact ⟨rfl, .inr (.inr (.inr (.inr rfl)))⟩
        · exact ⟨rfl, .inl rfl⟩

theorem issueStatusReq_writes (s : State) : PollWrites (LinkKept False) s (issueStatusReq s) := by
  have arm : PollWrite (LinkKept False) s (s.withLink { s.link with tReq := Timer.arm s.now }) :=
    .link s _ ⟨rfl, rfl, fun _ => rfl⟩
  exact .head arm (sendFramePoll_writes _ _)

theorem statusRequestCheck_writes (s : State) :
    PollWrites (LinkKept False) s (statusRequestCheck s) := by
  unfold statusRequestCheck
  split
  · exact issueStatusReq_writes s
  · exact .refl

theorem statusRequestCheck_prev (s : State) :
    (statusRequestCheck s).link.prev = s.link.prev :=
  ((statusRequestCheck_writes s).link_rel (LinkKept.refl _) LinkKept.trans).prev

theorem syncCall_prev (s : State) : (syncCall s).2.link.prev = s.link.prev :=
  syncLoop_keeps (P := fun t => t.link.prev = s.link.prev)
    (fun t h => by rw [interruptPoint_link]; exact h)
    (fun t b rest h _ => by rw [syncByte_eq]; exact h) _ _ s rfl

theorem linkStep_catchesUp (s : State) :
    CatchesUp s.link.prev (linkStep s).link.cur (linkStep s).link.prev := by
  have before : (syncCall (statusRequestCheck s)).2.link.prev = s.link.prev :=
    (syncCall_prev _).trans (statusRequestCheck_prev s)
  unfold linkStep
  dsimp only
  split
  · obtain ⟨cur, prev⟩ := diff_link (syncCall (statusRequestCheck s)).2
    rwa [cur, ← before]
  · exact .inl before

/-- The dispatcher leaves the snapshots alone. -/
theorem dispatch_link (s : State) :
    LinkKept (s.fsm.mode = .factoryReset ∧ s.fsm.tasks.factoryReset = .init) s.link
      (dispatch s).link :=
  (dispatch_writes s And.intro).link_rel (LinkKept.refl _) LinkKept.trans

/-- Settles O35: the link step lets a byte catch up, the dispatcher leaves the snapshots alone. -/
theorem pollCatchesUpAtMostOneByte : Obligations.PollCatchesUpAtMostOneByte := by
  unfold Obligations.PollCatchesUpAtMostOneByte
  intro s
  have kept := dispatch_link (interruptPoint (linkStep s))
  rw [interruptPoint_link] at kept
  have poll : CatchesUp s.link.prev (pollOnce s).link.cur (pollOnce s).link.prev := by
    rw [pollOnce, kept.cur, kept.prev]
    exact linkStep_catchesUp s
  exact ⟨pollOnce s, rfl, poll⟩

/-! ### The tick -/

theorem diff_now {s : State} (h : s.inStore NoTick) :
    (diff s).inStore NoTick ∧ (diff s).now = s.now := by
  have one : (interruptPoint s).inStore NoTick ∧ (interruptPoint s).now = s.now :=
    ⟨interruptPoint_inStore h, interruptPoint_now h⟩
  unfold diff
  split
  · rw [react0_eq]
    exact one
  · split
    · have two : (interruptPoint (modeMirrored s)).now = (modeMirrored s).now :=
        interruptPoint_now (s := modeMirrored s) one.1
      rw [react1_eq]
      exact ⟨interruptPoint_inStore (s := modeMirrored s) one.1, two.trans one.2⟩
    · split
      · rw [react2_eq]
        split
        · exact one
        · exact one
      · split
        · rw [react3_eq]
          exact one
        · exact ⟨h, rfl⟩

theorem syncCall_now {s : State} (h : s.inStore NoTick) :
    (syncCall s).2.inStore NoTick ∧ (syncCall s).2.now = s.now :=
  syncLoop_keeps (P := fun t => t.inStore NoTick ∧ t.now = s.now)
    (fun _ ⟨noTick, now⟩ => ⟨interruptPoint_inStore noTick, (interruptPoint_now noTick).trans now⟩)
    (fun _ _ _ ht _ => by rw [syncByte_eq]; exact ht) _ _ s ⟨h, rfl⟩

theorem linkStep_now {s : State} (h : s.inStore NoTick) :
    (linkStep s).inStore NoTick ∧ (linkStep s).now = s.now := by
  obtain ⟨noTick, now⟩ := (statusRequestCheck_writes s).now h
  obtain ⟨noTick', now'⟩ := syncCall_now noTick
  unfold linkStep
  dsimp only
  split
  · obtain ⟨noTick'', now''⟩ := diff_now noTick'
    exact ⟨noTick'', now''.trans (now'.trans now)⟩
  · exact ⟨noTick', now'.trans now⟩

theorem pollOnce_now {s : State} (h : s.inStore NoTick) : (pollOnce s).now = s.now := by
  obtain ⟨noTick, now⟩ := linkStep_now h
  have point := interruptPoint_now noTick
  have dispatched := (dispatch_writes (awaits := True) (interruptPoint (linkStep s))
    fun _ _ => trivial).now (interruptPoint_inStore noTick)
  exact dispatched.2.trans (point.trans now)

theorem busReads_now (n : Nat) (s : State) : (busReads n s).now = s.now := by
  induction n generalizing s with
  | zero => rfl
  | succ n ih => exact (ih _).trans (busRead_safe s).now

theorem receiveBytes_now (bs : List Byte) (s : State) : (receiveBytes bs s).now = s.now := by
  rw [receiveBytes_eq]
  rfl

/-- Settles O50: every other instruction is a bus operation, a queueing, a write of one input, or writes
of the poll agent. -/
theorem nowMovesOnlyByTicks : Obligations.NowMovesOnlyByTicks := by
  unfold Obligations.NowMovesOnlyByTicks
  intro i s h notTick notTick100 notWait notReset
  have noTick : s.inStore NoTick := h
  have block := fun p => ((sendThenBlock_writes (L := LinkKept False) p s).now noTick).2
  have echo := fun p => ((sendThenEcho_writes (awaits := False) p s).now noTick).2
  have send := fun p => ((sendFramePoll_writes (L := LinkKept False) p s).now noTick).2
  cases i with
  | tick n => exact absurd rfl (notTick n)
  | tick100 n => exact absurd rfl (notTick100 n)
  | wait w => exact absurd rfl (notWait w)
  | reset => exact absurd rfl notReset
  | rxb b => exact ⟨_, rfl, receiveBytes_now [b] s⟩
  | rxseq | rxstatus | statusFrame => exact ⟨_, rfl, receiveBytes_now _ s⟩
  | post | postNone | postVolUp | postVolDown | postModeToggle | postSetModeFromModule | postPower
  | postFactoryReset | postModuleVolumeSet | postOther | scan | txdrop | illegal | nop =>
    exact ⟨_, rfl, rfl⟩
  | baddrw => exact ⟨_, rfl, (busAddrW_safe s).now⟩
  | baddrr => exact ⟨_, rfl, (busAddrR_safe s).now⟩
  | bwr b => exact ⟨_, rfl, (busWrite_safe b s).now⟩
  | brd => exact ⟨_, rfl, (busRead_safe s).now⟩
  | bstop p => exact ⟨_, rfl, (busStop_safe p s).now⟩
  | baf => exact ⟨_, rfl, (busAckFail_safe s).now⟩
  | berr => exact ⟨_, rfl, (busError_safe s).now⟩
  | bsetidx i => exact ⟨_, rfl, ((busAddrW_safe s).trans (busWrite_safe i _)).now⟩
  | bread n =>
    exact ⟨_, rfl, ((busAckFail_safe _).trans (busStop_safe false _)).now.trans
      ((busReads_now n _).trans (busAddrR_safe s).now)⟩
  | bwrite | writeRecord | recReject | recRawStore | recOob | recKeyCmd | recAuxCtrl | recVolumeSet
  | keyMute | keyUnmute | keySpotifyMode | keyBtMode | keyVolUp | keyVolDown | keyPlayPause
  | keyNext | keyPrev | keyResetNetwork | keyFactoryReset =>
    exact ⟨_, rfl, (busRecord_safe _ _ _ s).now⟩
  | mcSetVolume v => exact ⟨_, rfl, (volumeSet_safe _ s).now⟩
  | poll => exact ⟨_, rfl, pollOnce_now noTick⟩
  | mcStatusReq => exact ⟨_, rfl, ((issueStatusReq_writes s).now noTick).2⟩
  | cmdFrame | fcUnmute => exact ⟨_, rfl, send _⟩
  | fcSpotify | fcSwitchSpotify | fcBt | fcStandby => exact ⟨_, rfl, block _⟩
  | fcVolUp | fcVolDown => exact ⟨_, rfl, echo _⟩
  | fcFactoryReset => exact ⟨_, rfl, ((issueFactoryReset_writes s trivial).now noTick).2⟩

/-! ### A POLL where no stimulus is in store -/

/-- Where no stimulus is in store, the status request is `afterRequest` (40_serial_link.md R130). -/
theorem statusRequestCheck_quiet {s : State} (hq : s.quietPoints) :
    statusRequestCheck s = afterRequest s := by
  unfold statusRequestCheck afterRequest
  split
  · exact sendFramePoll_quiet (s := s.withLink { s.link with tReq := Timer.arm s.now }) hq _
  · rfl

/-- The status request touches the histories, the draws and its own timer. -/
theorem afterRequest_eq (s : State) : ∃ io draws tReq,
    afterRequest s = { s with io := io, draws := draws, link := { s.link with tReq := tReq } } := by
  unfold afterRequest
  split
  · exact ⟨_, _, _, rfl⟩
  · exact ⟨_, _, _, rfl⟩

theorem afterRequest_sync (s : State) : (afterRequest s).sync = s.sync := by
  obtain ⟨io, draws, tReq, request⟩ := afterRequest_eq s
  rw [request]

theorem afterRequest_quiet {s : State} (hq : s.quietPoints) : (afterRequest s).quietPoints := by
  obtain ⟨io, draws, tReq, request⟩ := afterRequest_eq s
  rw [request]
  exact hq

/-- R133 where no stimulus is in store. -/
theorem react1_quiet {s : State} (hq : s.quietPoints) : react1 s = { s with
    mem := (s.mem.write s.cfg.regMode.val ((modeNibOf s.cfg s.link.cur.b1).zeroExtend 8)).write
      s.cfg.regSpotify.val ((spotifyNibOf s.cfg s.link.cur.b1).zeroExtend 8)
    fsm := { s.fsm with
      event :=
        if modeNibOf s.cfg s.link.cur.b1 ≠ modeNibOf s.cfg s.link.prev.b1 ∧
          s.cfg.fsControlModeFromModule = true ∧ inWifiSetup s.cfg s.link.cur = false
        then 0x04 else s.fsm.event }
    link := { s.link with prev := { s.link.prev with b1 := s.link.cur.b1 } } } := by
  have mirrored : interruptPoint (modeMirrored s) = s.withMem
      (s.mem.write s.cfg.regMode.val ((modeNibOf s.cfg s.link.cur.b1).zeroExtend 8)) := by
    unfold modeMirrored
    rw [interruptPoint_quiet hq]
    exact interruptPoint_quiet (s := s.withMem _) hq
  rw [react1_eq, mirrored]
  rfl

/-- R134 where no stimulus is in store. -/
theorem react2_quiet {s : State} (hq : s.quietPoints) : ∃ volume inFlight, react2 s = { s with
    mem := s.mem.write s.cfg.regVolumeMute.val s.link.cur.b2
    fsm := { s.fsm with
      volume := volume
      event :=
        if running s.cfg s.now s.link.tEcho s.cfg.volEchoMs = true ∨ s.link.volInFlight = true
        then s.fsm.event else 0x07 }
    link := { s.link with
      volInFlight := inFlight, prev := { s.link.prev with b2 := s.link.cur.b2 } } } := by
  rw [react2_eq, interruptPoint_quiet hq]
  split
  · next window =>
    refine ⟨s.fsm.volume, s.link.volInFlight, ?_⟩
    rw [if_pos (.inl window)]
  · next window =>
    refine ⟨s.link.cur.b2.extractLsb' 0 7, true, ?_⟩
    simp only [or_iff_right window]

/-- What a diff makes of the link, the register file and the event slot where no stimulus is in store
(40_serial_link.md R131 to R135). -/
structure DiffEffect (s u : State) : Prop where
  cur : u.link.cur = s.link.cur
  prev : u.link.prev =
    if s.link.cur.b0 ≠ s.link.prev.b0 then { s.link.prev with b0 := s.link.cur.b0 }
    else if s.link.cur.b1 ≠ s.link.prev.b1 then { s.link.prev with b1 := s.link.cur.b1 }
    else if s.link.cur.b2 ≠ s.link.prev.b2 then { s.link.prev with b2 := s.link.cur.b2 }
    else if s.link.cur.b3 ≠ s.link.prev.b3 then { s.link.prev with b3 := s.link.cur.b3 }
    else s.link.prev
  mem : u.mem =
    if s.link.cur.b0 ≠ s.link.prev.b0 then s.mem.write s.cfg.regWifiBt.val s.link.cur.b0
    else if s.link.cur.b1 ≠ s.link.prev.b1 then
      (s.mem.write s.cfg.regMode.val ((modeNibOf s.cfg s.link.cur.b1).zeroExtend 8)).write
        s.cfg.regSpotify.val ((spotifyNibOf s.cfg s.link.cur.b1).zeroExtend 8)
    else if s.link.cur.b2 ≠ s.link.prev.b2 then s.mem.write s.cfg.regVolumeMute.val s.link.cur.b2
    else if s.link.cur.b3 ≠ s.link.prev.b3 then s.mem.write s.cfg.regError.val s.link.cur.b3
    else s.mem
  event : u.fsm.event =
    if s.link.cur.b0 ≠ s.link.prev.b0 then s.fsm.event
    else if s.link.cur.b1 ≠ s.link.prev.b1 then
      if modeNibOf s.cfg s.link.cur.b1 ≠ modeNibOf s.cfg s.link.prev.b1 ∧
        s.cfg.fsControlModeFromModule = true ∧ inWifiSetup s.cfg s.link.cur = false
      then 0x04 else s.fsm.event
    else if s.link.cur.b2 ≠ s.link.prev.b2 then
      if running s.cfg s.now s.link.tEcho s.cfg.volEchoMs = true ∨ s.link.volInFlight = true
      then s.fsm.event else 0x07
    else s.fsm.event
  ready : u.link.ready = s.link.ready
  sync : u.sync = s.sync
  input : u.input = s.input

theorem diff_quiet {s : State} (hq : s.quietPoints) : DiffEffect s (diff s) := by
  have point := interruptPoint_quiet hq
  by_cases h0 : s.link.cur.b0 = s.link.prev.b0
  case neg =>
    rw [diff_b0 h0, react0_eq, point]
    constructor
    all_goals simp only [h0, ne_eq, not_false_iff, if_true]
  by_cases h1 : s.link.cur.b1 = s.link.prev.b1
  case neg =>
    rw [diff_b1 h0 h1, react1_quiet hq]
    constructor
    all_goals simp only [h0, h1, ne_eq, not_true, not_false_iff, if_true, if_false]
  by_cases h2 : s.link.cur.b2 = s.link.prev.b2
  case neg =>
    obtain ⟨volume, inFlight, volumeReaction⟩ := react2_quiet hq
    rw [diff_b2 h0 h1 h2, volumeReaction]
    constructor
    all_goals simp only [h0, h1, h2, ne_eq, not_true, not_false_iff, if_true, if_false]
  by_cases h3 : s.link.cur.b3 = s.link.prev.b3
  case neg =>
    rw [diff_b3 h0 h1 h2 h3, react3_eq, point]
    constructor
    all_goals simp only [h0, h1, h2, h3, ne_eq, not_true, not_false_iff, if_true, if_false]
  rw [diff_same h0 h1 h2 h3]
  constructor
  all_goals simp only [h0, h1, h2, h3, ne_eq, not_true, if_false]

/-- Where no stimulus is in store and a whole status frame is queued, SyncCall takes it and leaves the
bytes behind it. -/
theorem syncCall_statusFrame {payload rest : List Byte} {s : State} (hp : payload.length ≤ 4)
    (hq : s.quietPoints) (h : s.sync.state = .awaitM1)
    (hf : s.sync.rxFifo = statusBytes payload ++ rest) :
    syncCall s = (true, setFifo rest (frameTaken payload s)) := by
  have queued : s = setFifo (statusBytes payload ++ rest) s := by rw [← hf, setFifo_self]
  calc syncCall s = syncCall (setFifo (statusBytes payload ++ rest) s) := congrArg syncCall queued
    _ = _ := (statusFrame_completes h hp).syncCall_eq hq rest

/-- Where no stimulus is in store and no byte is queued, the link step is the status request. -/
theorem linkStep_empty {s : State} (hq : s.quietPoints) (hf : s.sync.rxFifo = []) :
    linkStep s = afterRequest s := by
  have none := syncCall_nil (afterRequest_quiet hq) (by rw [afterRequest_sync, hf])
  unfold linkStep
  rw [statusRequestCheck_quiet hq, none]
  rfl

/-- What the link step hands to the diff where a whole status frame is queued: the request sent when due,
the frame taken, the bytes `rest` behind it left. -/
def afterFrame (payload rest : List Byte) (s : State) : State :=
  setFifo rest (frameTaken payload (afterRequest s))

/-- Where no stimulus is in store and a whole status frame is queued, the link step sends the request when
due, takes the frame and runs the diff. -/
theorem linkStep_statusFrame {payload rest : List Byte} {s : State} (hp : payload.length ≤ 4)
    (hq : s.quietPoints) (h : s.sync.state = .awaitM1)
    (hf : s.sync.rxFifo = statusBytes payload ++ rest) :
    linkStep s = diff (afterFrame payload rest s) := by
  have frame := syncCall_statusFrame hp (afterRequest_quiet hq) (by rw [afterRequest_sync, h])
    (by rw [afterRequest_sync, hf])
  unfold linkStep
  rw [statusRequestCheck_quiet hq, frame]
  rfl

/-- A taken frame changes the synchronizer and of the link the readiness and the current snapshot; the
request changed the histories, the draws and its timer. -/
theorem afterFrame_eq (payload rest : List Byte) {s : State} (h : s.sync.state = .awaitM1) :
    afterFrame payload rest s = { afterRequest s with
      sync := { s.sync with
        rxFifo := rest, len := BitVec.ofNat 3 payload.length, count := 0
        buf := s.sync.buf.overlay payload }
      link := { (afterRequest s).link with ready := true, cur := s.link.cur.overlay payload } } := by
  obtain ⟨io, draws, tReq, request⟩ := afterRequest_eq s
  unfold afterFrame frameTaken
  rw [request, ← h]
  rfl

/-- What the diff makes of a taken frame, in terms of the state before the POLL. -/
theorem diff_afterFrame (payload rest : List Byte) {s : State} (hq : s.quietPoints) :
    DiffEffect { s with
      sync := (afterFrame payload rest s).sync
      link := { s.link with ready := true, cur := (afterFrame payload rest s).link.cur } }
      (diff (afterFrame payload rest s)) := by
  obtain ⟨io, draws, tReq, request⟩ := afterRequest_eq s
  have quiet : (afterFrame payload rest s).quietPoints := afterRequest_quiet hq
  have effect := diff_quiet quiet
  unfold afterFrame at effect ⊢
  rw [request] at effect ⊢
  exact { effect with }

/-- Settles O36: the POLL by its definition, then by `linkStep_empty` and `linkStep_statusFrame`; what
the diff makes of the frame is `diff_afterFrame`, and the dispatcher leaves it so. -/
theorem pollTakesQueuedStatusFrame : Obligations.PollTakesQueuedStatusFrame := by
  unfold Obligations.PollTakesQueuedStatusFrame
  refine ⟨fun s => ⟨_, rfl, rfl, rfl⟩, fun s hq hf => ?_, fun payload rest s hp hq h hf => ?_⟩
  · show Host.Outcome.next (dispatch (interruptPoint (linkStep s))) = _
    rw [linkStep_empty hq hf, interruptPoint_quiet (afterRequest_quiet hq)]
  · have taken := afterFrame_eq payload rest h
    have bytes : ∀ k < 4, (afterFrame payload rest s).link.cur.get k =
        payload[k]?.getD (s.link.cur.get k) := fun k hk => by
      rw [taken]; exact Quad.get_overlay _ _ hk
    have effect := diff_afterFrame payload rest hq
    have link := linkStep_statusFrame hp hq h hf
    have quiet : (linkStep s).quietPoints := by
      rw [link]; exact State.quietPoints_of_input effect.input hq
    have kept := dispatch_link (linkStep s)
    obtain ⟨-, sync⟩ := (dispatch_writes (awaits := True) (linkStep s) fun _ _ => trivial).quiet quiet
    have core := linkStep_core s
    rw [← link] at effect
    refine ⟨afterFrame payload rest s, linkStep s, dispatch (linkStep s), ?_, fun k hk => ?_, bytes, link,
      rfl, effect.cur, effect.prev, effect.mem, effect.event, ?_, rfl, fun k hk => ?_, kept.prev, ?_, ?_,
      fun notAwaited => ?_⟩
    · rw [taken]
    · rw [taken]
      exact Quad.get_overlay _ _ hk
    · show Host.Outcome.next (dispatch (interruptPoint (linkStep s))) = _
      rw [interruptPoint_quiet quiet]
    · rw [kept.cur, effect.cur]
      exact bytes k hk
    · rw [sync, effect.sync]
      rfl
    · rw [sync, effect.sync]
      rfl
    · refine (kept.ready fun awaited => notAwaited ?_).trans effect.ready
      obtain ⟨mode, task⟩ := awaited
      exact ⟨(congrArg ModeCore.mode core).symm.trans mode,
        (congrArg (·.tasks.factoryReset) core).symm.trans task⟩

end Sys2Proof.Machine
end

section
/-! PROOF. The register bus family: how a transaction starts, stores, reads and ends (41_register_bus.md
R170 to R181), and what the router makes of a record: rejected, out of the storage, stored, a key, the
volume-set and the auxiliary register (R190 to R199), or the stale bytes of a write cut short (R178). -/

namespace Sys2Proof.Machine

/-! ### The rows of a write record -/

/-- A row that is the bus transaction of a record, and the two rows that write any record. -/
theorem exec_recordRows {i lo hi : Byte} {row : Instr} {s : State}
    (h : exec row s = .next (busRecord i lo hi s)) :
    ∀ j ∈ [row, .writeRecord i lo hi, .bwrite i lo hi], exec j s = .next (busRecord i lo hi s) :=
  List.forall_mem_cons.mpr ⟨h, List.forall_mem_cons.mpr ⟨rfl, List.forall_mem_singleton.mpr rfl⟩⟩

/-! ### What the router does, record by record -/

/-- A record with an index above 15 is received and nothing else (41_register_bus.md R191). -/
theorem busRecord_rejected {i : Byte} (lo hi : Byte) (s : State) (h : regIndexMax < i.toNat) :
    busRecord i lo hi s = busIdle (recordReceived i lo hi s) := by
  rw [busRecord_eq, route, recordReceived_record, if_pos h]

/-- An index that is none of the router's targets (41_register_bus.md R199). -/
theorem routeAction_unnamed {i : Byte} {s : State} (key : i ≠ regByte regKeyCmd)
    (volume : i ≠ regByte s.cfg.regVolumeSet) (aux : i ≠ regByte s.cfg.regAuxCtrl) :
    routeAction i s = s := by
  rw [routeAction, if_neg key, if_neg volume, if_neg aux]

theorem ne_regByte {i : Byte} (h : regFileSize ≤ i.toNat) (r : Fin 12) : i ≠ regByte r := by
  rintro rfl
  rw [regByte_toNat] at h
  exact absurd r.isLt (Nat.not_lt.mpr h)

/-- Past the storage the raw store raises the model fault where the bus stores, and stores nothing
(41_register_bus.md R193). -/
theorem rawStore_oob {i : Byte} (s : State) (h : regFileSize ≤ i.toNat) :
    rawStore i s = s.withFault (s.faultRegfileOob || decide (s.cfg.rawStoreMode = .byte)) := by
  unfold rawStore
  cases mode : s.cfg.rawStoreMode
  · simp
  · simp [Nat.not_lt.mpr h, raiseRegfileOob]

/-- A record with index 12 to 15: received, and the raw store's fault. -/
theorem busRecord_oob {i : Byte} (lo hi : Byte) (s : State) (h : regFileSize ≤ i.toNat)
    (h' : i.toNat ≤ regIndexMax) :
    busRecord i lo hi s = (busIdle (recordReceived i lo hi s)).withFault
      (s.faultRegfileOob || decide (s.cfg.rawStoreMode = .byte)) := by
  rw [busRecord_eq, route, recordReceived_record, if_neg (Nat.not_lt.mpr h'), rawStore_oob _ h,
    routeAction_unnamed (ne_regByte h _) (ne_regByte h _) (ne_regByte h _)]
  rfl

/-- The state after a whole record with a storage index, the router's further action left out: received,
stored, listening again. -/
def recordStored (i lo hi : Byte) (s : State) : State :=
  { s with
    io := { s.io with ackLog := s.io.ackLog ++ [true, true, false] }
    bus := { s.bus with state := .idle, record := ⟨i, lo, hi⟩, rxCount := 3 }
    mem := rawMemory i lo s }

@[simp] theorem busIdle_cfg (s : State) : (busIdle s).cfg = s.cfg := rfl
@[simp] theorem busIdle_record (s : State) : (busIdle s).bus.record = s.bus.record := rfl

/-- The router's further action neither reads nor writes the state of the bus transaction. -/
theorem routeAction_busIdle (i : Byte) (s : State) :
    routeAction i (busIdle s) = busIdle (routeAction i s) := by
  have send : ∀ bs, afterOffer (busIdle s) bs = busIdle (afterOffer s bs) := fun _ => rfl
  unfold routeAction routeKey volumeSet auxControl
  simp only [sendFrameBus_eq, send, busIdle_cfg, busIdle_record]
  split
  · split <;> rfl
  · simp only [apply_ite busIdle]
    rfl

/-- A record with a storage index: stored, and then the router's further action. -/
theorem busRecord_routed {i : Byte} (lo hi : Byte) (s : State) (h : i.toNat < regFileSize) :
    busRecord i lo hi s = routeAction i (recordStored i lo hi s) :=
  (busRecord_storage i lo hi s h).trans (routeAction_busIdle i _).symm

/-- A record at an index with storage that is none of the router's targets. -/
theorem busRecord_unnamed {i : Byte} (lo hi : Byte) {s : State} (h : i.toNat < regFileSize)
    (key : i ≠ regByte regKeyCmd) (volume : i ≠ regByte s.cfg.regVolumeSet)
    (aux : i ≠ regByte s.cfg.regAuxCtrl) : busRecord i lo hi s = recordStored i lo hi s :=
  (busRecord_routed lo hi s h).trans (routeAction_unnamed key volume aux)

theorem regByte_inStorage (r : Fin 12) : (regByte r).toNat < regFileSize := by
  rw [regByte_toNat]
  exact r.isLt

/-- An unknown key code is ignored (41_register_bus.md R196). -/
theorem routeAction_unknownKey {s : State} (h : keyOf s.cfg s.bus.record.hi = none) :
    routeAction (regByte regKeyCmd) s = s := by
  rw [routeAction, if_pos rfl, routeKey, h]

theorem busRecord_unknownKey {hi : Byte} {s : State} (lo : Byte) (h : keyOf s.cfg hi = none) :
    busRecord (regByte regKeyCmd) lo hi s = recordStored (regByte regKeyCmd) lo hi s :=
  (busRecord_routed lo hi s (regByte_inStorage _)).trans (routeAction_unknownKey h)

theorem busRecord_key {hi : Byte} {k : Key} {s : State} (lo : Byte) (h : keyOf s.cfg hi = some k) :
    busRecord (regByte regKeyCmd) lo hi s = afterOffer (recordStored (regByte regKeyCmd) lo hi s)
      [0xFF, 0x46, 0x53, 0x02, (s.cfg.keyCode k).cmd, 0x80] :=
  (busRecord_routed lo hi s (regByte_inStorage _)).trans (routeAction_key h)

/-! ### The volume-set and the auxiliary register -/

/-- The router's volume command, sent for a value up to 32 (41_register_bus.md R197). -/
theorem volumeSet_eq (v : BitVec 16) (s : State) :
    volumeSet v s = if v.toNat ≤ 32 then
      afterOffer s [0xFF, 0x46, 0x53, 0x02, s.cfg.mcSetVolume, v.extractLsb' 0 8] else s := by
  rw [volumeSet, sendFrameBus_eq]
  split
  · next large => exact (if_neg (Nat.not_le.mpr large)).symm
  · next small => exact (if_pos (Nat.not_lt.mp small)).symm

/-- The 16-bit value of a record is a byte's value where its high byte is 0. -/
theorem data16_eq_iff (r : Record) (b : Byte) :
    r.data16 = b.zeroExtend 16 ↔ r.hi = 0 ∧ r.lo = b := by
  have wide : (b.zeroExtend 16).toNat = b.toNat := BitVec.toNat_setWidth_of_le (by decide)
  have bound := b.isLt
  have low := r.lo.isLt
  rw [BitVec.toNat_eq, data16_toNat, wide, BitVec.toNat_eq, BitVec.toNat_eq,
    show (0 : Byte).toNat = 0 from rfl]
  omega

/-- The router's volume command for one byte's value (log entry 14). -/
theorem volumeSet_byte {b : Byte} (s : State) (h : b.toNat ≤ 32) :
    volumeSet (b.zeroExtend 16) s =
      afterOffer s [0xFF, 0x46, 0x53, 0x02, s.cfg.mcSetVolume, b] := by
  have wide : (Record.mk 0 b 0).data16 = b.zeroExtend 16 := (data16_eq_iff _ b).mpr ⟨rfl, rfl⟩
  rw [← wide, volumeSet_eq, data16_toNat, data16_low, if_pos (by simpa using h)]

/-- What the auxiliary register makes of a record's value (41_register_bus.md R198). -/
theorem auxControl_data16 (r : Record) (s : State) :
    auxControl r.data16 s = s.withIndicator
      (if r.hi = 0 ∧ r.lo = 0 then false else if r.hi = 0 ∧ r.lo = 1 then true else s.indicator) := by
  have off : r.data16 = 0x0000 ↔ r.hi = 0 ∧ r.lo = 0 := data16_eq_iff r 0
  have on : r.data16 = 0x0001 ↔ r.hi = 0 ∧ r.lo = 1 := data16_eq_iff r 1
  simp only [auxControl, off, on]
  split_ifs
  · rfl
  · rfl
  · rfl

section
variable {s : State} (distinct : s.cfg.regsDistinct = true)
include distinct

/-- The router's three targets stand at distinct indices (41_register_bus.md R161). -/
theorem targets_ne : s.cfg.regVolumeSet ≠ regKeyCmd ∧ s.cfg.regAuxCtrl ≠ regKeyCmd ∧
    s.cfg.regAuxCtrl ≠ s.cfg.regVolumeSet := by
  have nodup := of_decide_eq_true distinct
  simp only [List.nodup_cons, List.mem_cons, not_or] at nodup
  tauto

theorem routeAction_volumeSet :
    routeAction (regByte s.cfg.regVolumeSet) s =
      if s.bus.record.lo.toNat + 256 * s.bus.record.hi.toNat ≤ 32 then
        afterOffer s [0xFF, 0x46, 0x53, 0x02, s.cfg.mcSetVolume, s.bus.record.lo]
      else s := by
  obtain ⟨key, -, -⟩ := targets_ne distinct
  rw [routeAction, if_neg (key ∘ regByte_inj), if_pos rfl, volumeSet_eq, data16_toNat, data16_low]

theorem routeAction_auxCtrl :
    routeAction (regByte s.cfg.regAuxCtrl) s = s.withIndicator
      (if s.bus.record.hi = 0 ∧ s.bus.record.lo = 0 then false
        else if s.bus.record.hi = 0 ∧ s.bus.record.lo = 1 then true else s.indicator) := by
  obtain ⟨-, key, volume⟩ := targets_ne distinct
  rw [routeAction, if_neg (key ∘ regByte_inj), if_neg (volume ∘ regByte_inj), if_pos rfl,
    auxControl_data16]

theorem busRecord_volumeSet (lo hi : Byte) :
    busRecord (regByte s.cfg.regVolumeSet) lo hi s =
      if lo.toNat + 256 * hi.toNat ≤ 32 then
        afterOffer (recordStored (regByte s.cfg.regVolumeSet) lo hi s)
          [0xFF, 0x46, 0x53, 0x02, s.cfg.mcSetVolume, lo]
      else recordStored (regByte s.cfg.regVolumeSet) lo hi s :=
  (busRecord_routed lo hi s (regByte_inStorage _)).trans
    (routeAction_volumeSet (s := recordStored _ lo hi s) distinct)

theorem busRecord_auxCtrl (lo hi : Byte) :
    busRecord (regByte s.cfg.regAuxCtrl) lo hi s =
      (recordStored (regByte s.cfg.regAuxCtrl) lo hi s).withIndicator
        (if hi = 0 ∧ lo = 0 then false else if hi = 0 ∧ lo = 1 then true else s.indicator) :=
  (busRecord_routed lo hi s (regByte_inStorage _)).trans
    (routeAction_auxCtrl (s := recordStored _ lo hi s) distinct)

end

/-- The raw store's memory at a named register. -/
theorem rawMemory_regByte (r : Fin 12) (lo : Byte) (s : State) :
    rawMemory (regByte r) lo s = match s.cfg.rawStoreMode with
      | .byte => s.mem.write r.val lo
      | .none => s.mem :=
  congrArg (fun a => match s.cfg.rawStoreMode with
    | .byte => s.mem.write a lo
    | .none => s.mem) (regByte_toNat r)

/-- A record stored at a named register, its memory by the register's number. -/
theorem recordStored_regByte (r : Fin 12) (lo hi : Byte) (s : State) :
    recordStored (regByte r) lo hi s = { s with
      io := { s.io with ackLog := s.io.ackLog ++ [true, true, false] }
      bus := { s.bus with state := .idle, record := ⟨regByte r, lo, hi⟩, rxCount := 3 }
      mem := match s.cfg.rawStoreMode with
        | .byte => s.mem.write r.val lo
        | .none => s.mem } :=
  congrArg (fun m => { recordStored (regByte r) lo hi s with mem := m }) (rawMemory_regByte r lo s)

/-! ### The register file after a record -/

theorem rawMemory_wf {i : Byte} (lo : Byte) {s : State} (h : i.toNat < regFileSize)
    (hm : s.mem.wf = true) : (rawMemory i lo s).wf = true := by
  unfold rawMemory
  split
  · exact Memory.write_wf lo h hm
  · exact hm

theorem rawMemory_read (i lo : Byte) {s : State} (hm : s.mem.wf = true) (a : Nat) :
    (rawMemory i lo s).read a =
      if a = i.toNat ∧ s.cfg.rawStoreMode = .byte then lo else s.mem.read a := by
  unfold rawMemory
  split
  · next mode => simp [Memory.read_write (lo := 0) hm, mode, eq_comm]
  · next mode => simp [mode]

/-! ### The router sees the record, not the transaction -/

/-- Two states the router cannot tell apart: all it reads or writes is the same. -/
structure RoutedAlike (s t : State) : Prop where
  cfg : s.cfg = t.cfg
  record : s.bus.record = t.bus.record
  mem : s.mem = t.mem
  indicator : s.indicator = t.indicator
  fault : s.faultRegfileOob = t.faultRegfileOob
  txLog : s.io.txLog = t.io.txLog
  drop : s.io.envTxDrop = t.io.envTxDrop
  draws : s.draws = t.draws
  scripted : s.scripted = t.scripted

section
variable {s t : State} (h : RoutedAlike s t)
include h

theorem RoutedAlike.afterOffer (bs : List Byte) : RoutedAlike (afterOffer s bs) (afterOffer t bs) where
  __ := h
  txLog := by simp only [Machine.afterOffer, acceptedBytes, h.txLog, h.drop, h.draws, h.scripted]
  drop := by simp only [Machine.afterOffer, h.drop]
  draws := by simp only [Machine.afterOffer, h.drop, h.draws]

theorem RoutedAlike.withIndicator (v : Bool) :
    RoutedAlike (s.withIndicator v) (t.withIndicator v) := { h with indicator := rfl }

theorem RoutedAlike.rawStore (i : Byte) : RoutedAlike (rawStore i s) (rawStore i t) := by
  by_cases storage : i.toNat < regFileSize
  · rw [rawStore_storage _ _ storage, rawStore_storage _ _ storage]
    exact { h with mem := by simp only [rawMemory, State.withMem_mem, h.cfg, h.mem, h.record] }
  · rw [rawStore_oob _ (Nat.le_of_not_lt storage), rawStore_oob _ (Nat.le_of_not_lt storage)]
    exact { h with fault := by simp only [State.withFault_faultRegfileOob, h.cfg, h.fault] }

theorem RoutedAlike.routeAction (i : Byte) : RoutedAlike (routeAction i s) (routeAction i t) := by
  simp only [Machine.routeAction, routeKey, volumeSet_eq, auxControl_data16, h.cfg, h.record,
    h.indicator]
  split_ifs with key volume small aux off on
  · split
    · simp only [sendFrameBus_eq]
      exact h.afterOffer _
    · exact h
  · exact h.afterOffer _
  · exact h
  · exact h.withIndicator _
  · exact h.withIndicator _
  · exact h.withIndicator _
  · exact h

theorem RoutedAlike.route : RoutedAlike (route s) (route t) := by
  unfold Machine.route
  rw [h.record]
  split
  · exact h
  · exact (h.rawStore _).routeAction _

theorem RoutedAlike.busIdle : RoutedAlike (busIdle s) (busIdle t) := { h with }

end

/-! ### How a transaction starts, stores, reads and ends -/

theorem busWrite_outside {s : State} (b : Byte) (h : s.bus.state ≠ .addrW) :
    busWrite b s = s.logAck false := if_neg h

/-- A byte that leaves the record incomplete (41_register_bus.md R172). -/
theorem busWrite_incomplete {s : State} (b : Byte) (h : s.bus.state = .addrW)
    (hc : (s.bus.rxCount + 1).toNat < recBytes) :
    busWrite b s = (storeRecByte b s).logAck true := by
  rw [busWrite, if_pos h]
  exact if_pos hc

/-- The byte that completes the record (41_register_bus.md R172, R173). -/
theorem busWrite_complete {s : State} (b : Byte) (h : s.bus.state = .addrW)
    (hc : recBytes ≤ (s.bus.rxCount + 1).toNat) :
    busWrite b s = recordComplete ((storeRecByte b s).logAck false) := by
  rw [busWrite, if_pos h]
  exact if_neg (Nat.not_lt.mpr hc)

theorem storeRecByte_of_count {n : BitVec 2} {s : State} (b : Byte) (h : s.bus.rxCount = n) :
    storeRecByte b s =
      s.withBus { s.bus with record := s.bus.record.set n.toNat b, rxCount := n + 1 } := by
  rw [storeRecByte, h]

/-- Outside a read transaction BRD answers a draw (41_register_bus.md R175). -/
theorem busRead_outside {s : State} (h : s.bus.state ≠ .addrR) :
    busRead s = (s.withDraws (s.draws + 1)).logRead (Config.drawByte s.draws) := if_neg h

/-- Past the storage BRD answers a draw and moves on (20_memory.md R61). -/
theorem busRead_pastStorage {s : State} (hr : s.bus.state = .addrR)
    (h : regFileSize ≤ s.bus.txPos.toNat) :
    busRead s = ((s.withDraws (s.draws + 1)).logRead (Config.drawByte s.draws)).withBus
      { s.bus with txPos := s.bus.txPos + 1, txCount := s.bus.txCount + 1 } := by
  have past := Nat.not_lt.mpr h
  rw [busRead, if_pos hr, State.afterRegRead, if_neg past, State.regReadByte, if_neg past]
  rfl

theorem busStop_abandons (s : State) : busStop false s = busIdle s := by simp [busStop]

/-- A stop during an incomplete record, taken as an acknowledge failure (41_register_bus.md R177). -/
theorem busStop_partial {s : State} (h : s.bus.state = .addrW) (hc : s.bus.rxCount.toNat < recBytes) :
    busStop true s = busIdle (partialRecord s) := if_pos ⟨h, hc, rfl⟩

theorem busStop_noRecord {s : State} (h : s.bus.state ≠ .addrW ∨ recBytes ≤ s.bus.rxCount.toNat) :
    busStop true s = busIdle s := by
  refine if_neg ?_
  rintro ⟨hw, hc, -⟩
  exact h.elim (· hw) (Nat.not_le.mpr hc)

theorem busAckFail_addrW {s : State} (h : s.bus.state = .addrW) :
    busAckFail s = busIdle (partialRecord s) := by rw [busAckFail, h]

theorem busAckFail_addrR {s : State} (h : s.bus.state = .addrR) :
    busAckFail s = s.withBus { s.bus with
      lastTxCount := s.bus.txCount, txCount := 0, state := .idle } := by rw [busAckFail, h]

theorem busAckFail_idle {s : State} (h : s.bus.state = .idle) : busAckFail s = s := by
  rw [busAckFail, h]

theorem partialRecord_retained {s : State} (h : s.cfg.partialRecordPolicy = .processRetained) :
    partialRecord s = route (s.withBus { s.bus with lastRxCount := s.bus.rxCount }) := by
  rw [partialRecord, h]

/-- The state a write cut short after its index byte leaves before the router runs: one acknowledge bit,
the index before the data bytes of an earlier record, and the count recorded (41_register_bus.md R178). -/
def indexReceived (i : Byte) (s : State) : State :=
  { s with
    io := { s.io with ackLog := s.io.ackLog ++ [true] }
    bus := { s.bus with
      state := .addrW, record := { s.bus.record with index := i }, rxCount := 1, lastRxCount := 1 } }

/-- An acknowledge failure after the index byte: the partial record is routed. -/
theorem busAckFail_index (i : Byte) {s : State} (h : s.cfg.partialRecordPolicy = .processRetained) :
    busAckFail (busWrite i (busAddrW s)) = busIdle (route (indexReceived i s)) :=
  (busAckFail_addrW rfl).trans
    (congrArg busIdle (partialRecord_retained (s := busWrite i (busAddrW s)) h))

/-! ### The statements -/

/-- Settles O16: what the record does to the register file is `rawMemory`; an index that is no target
leaves the router's further action out. -/
theorem rawStoreWritesLowByte : Obligations.RawStoreWritesLowByte := by
  unfold Obligations.RawStoreWritesLowByte
  intro i lo hi s h hm j hj
  have mem := busRecord_mem i lo hi s h
  refine ⟨busRecord i lo hi s, exec_recordRows rfl j hj, ?_, fun a => ?_, fun key volume aux => ?_⟩
  · rw [mem]
    exact rawMemory_wf lo h hm
  · rw [mem]
    exact rawMemory_read i lo hm a
  · rw [busRecord_unnamed lo hi h key volume aux]
    rfl

/-- Settles O19: the record is stored whatever its key; the frame is offered after it. -/
theorem keyRecordForwardsTheKey : Obligations.KeyRecordForwardsTheKey := by
  unfold Obligations.KeyRecordForwardsTheKey
  intro lo hi s
  refine ⟨recordStored 2 lo hi s, rfl, fun j hj => ?_⟩
  rw [exec_recordRows (i := 2) (row := .recKeyCmd lo hi) rfl j hj]
  exact ⟨fun unknown => congrArg Host.Outcome.next (busRecord_unknownKey lo unknown),
    fun k known => congrArg Host.Outcome.next (busRecord_key lo known)⟩

/-- Settles O22: the two records by their targets, the command row as the router's own send. -/
theorem volumeSetAndAuxRecords : Obligations.VolumeSetAndAuxRecords := by
  unfold Obligations.VolumeSetAndAuxRecords
  intro lo hi s distinct
  have aux := (busRecord_auxCtrl distinct lo hi).trans
    (congrArg (State.withIndicator · _) (recordStored_regByte s.cfg.regAuxCtrl lo hi s))
  exact ⟨⟨recordStored (regByte s.cfg.regVolumeSet) lo hi s, recordStored_regByte _ lo hi s,
    congrArg Host.Outcome.next (busRecord_volumeSet distinct lo hi)⟩,
    congrArg Host.Outcome.next aux,
    fun small => congrArg Host.Outcome.next (volumeSet_byte s small)⟩

/-- Settles O23: the router is handed the same record by the cut-short write and by the whole one. -/
theorem cutShortWriteRoutesStaleBytes : Obligations.CutShortWriteRoutesStaleBytes := by
  unfold Obligations.CutShortWriteRoutesStaleBytes
  intro i s retained
  have alike : RoutedAlike (busIdle (route (indexReceived i s)))
      (busIdle (route (recordReceived i s.bus.record.lo s.bus.record.hi s))) :=
    RoutedAlike.busIdle (RoutedAlike.route ⟨rfl, rfl, rfl, rfl, rfl, rfl, rfl, rfl, rfl⟩)
  exact ⟨_, _, congrArg some (busAckFail_index i retained),
    congrArg Host.Outcome.next (busRecord_eq i _ _ s), alike.mem, alike.indicator, alike.fault,
    alike.txLog, alike.record, rfl, congrArg (·.lastRxCount) (route_bus (indexReceived i s))⟩

/-- Settles O9: both address matches by their definitions. -/
theorem addressMatchStartsTransaction : Obligations.AddressMatchStartsTransaction := by
  unfold Obligations.AddressMatchStartsTransaction
  exact fun s => ⟨rfl, rfl⟩

/-- Settles O10, by the count the byte finds. -/
theorem bwrStoresAcknowledgesAndRoutes : Obligations.BwrStoresAcknowledgesAndRoutes := by
  unfold Obligations.BwrStoresAcknowledgesAndRoutes
  intro b s
  refine ⟨fun outside => congrArg Host.Outcome.next (busWrite_outside b outside), fun hw h0 => ?_,
    fun hw h1 => ?_, fun hw h2 => ⟨_, rfl, ?_⟩⟩
  · have stored := storeRecByte_of_count b h0
    refine congrArg Host.Outcome.next ((busWrite_incomplete b hw (by rw [h0]; decide)).trans ?_)
    rw [stored]
    rfl
  · have stored := storeRecByte_of_count b h1
    refine congrArg Host.Outcome.next ((busWrite_incomplete b hw (by rw [h1]; decide)).trans ?_)
    rw [stored]
    rfl
  · have stored := storeRecByte_of_count b h2
    refine congrArg Host.Outcome.next ((busWrite_complete b hw (by rw [h2]; decide)).trans ?_)
    rw [stored]
    rfl

/-- Settles O11, by the position the read finds. -/
theorem brdReturnsRegisterByte : Obligations.BrdReturnsRegisterByte := by
  unfold Obligations.BrdReturnsRegisterByte
  exact fun s => ⟨fun hr h => congrArg Host.Outcome.next (busRead_storage hr h),
    fun hr h => congrArg Host.Outcome.next (busRead_pastStorage hr h),
    fun outside => congrArg Host.Outcome.next (busRead_outside outside)⟩

/-- Settles O13: the state `u` is `partialRecord`, by its definition. -/
theorem transactionEndings : Obligations.TransactionEndings := by
  unfold Obligations.TransactionEndings
  intro s
  refine ⟨partialRecord s, rfl, congrArg Host.Outcome.next (busStop_abandons s),
    fun hw hc => congrArg Host.Outcome.next (busStop_partial hw hc),
    fun none => congrArg Host.Outcome.next (busStop_noRecord (none.imp_right fun full => full.ge)),
    fun hw => congrArg Host.Outcome.next (busAckFail_addrW hw),
    fun hr => congrArg Host.Outcome.next (busAckFail_addrR hr),
    fun idle => congrArg Host.Outcome.next (busAckFail_idle idle), rfl⟩

/-- Settles O15: an index above 15 by `busRecord_rejected`, 12 to 15 by `busRecord_oob`. -/
theorem recordsOutsideTheStorage : Obligations.RecordsOutsideTheStorage := by
  unfold Obligations.RecordsOutsideTheStorage
  intro i lo hi s
  refine ⟨busIdle (recordReceived i lo hi s), rfl, fun h j hj => ?_, fun h h' j hj => ?_⟩
  · rw [exec_recordRows (row := .recReject i lo hi) rfl j hj, busRecord_rejected lo hi s h]
  · rw [exec_recordRows (row := .recOob i lo hi) rfl j hj, busRecord_oob lo hi s h h']
    cases mode : s.cfg.rawStoreMode
    · simp [State.withFault]
    · simp [State.withFault]

/-- Settles O21: all four rows are the mute key's record, and a script takes the whole frame. -/
theorem muteRecordSendsWorkedFrame : Obligations.MuteRecordSendsWorkedFrame := by
  unfold Obligations.MuteRecordSendsWorkedFrame
  intro s scripted noDrop j hj
  have row : exec j s = .next (busRecord 2 0x80 0x01 s) := by
    obtain rfl | hj := List.mem_cons.mp hj
    · rfl
    · exact exec_recordRows rfl j hj
  have mute : keyOf s.cfg 0x01 = some .mute := rfl
  refine ⟨_, row, ?_⟩
  rw [show busRecord 2 0x80 0x01 s = _ from busRecord_key 0x80 mute]
  exact congrArg (s.io.txLog ++ ·) (acceptedBytes_scripted _ _ scripted noDrop)

end Sys2Proof.Machine
end

section
/-! PROOF. The variables of a mode change over a POLL, whatever is run at its interrupt points: a mode is
left at Stop alone (42_mode_fsm.md R217), `factory_in_progress` is set exactly while a factory reset is
requested or under way (R244, R246, R255), and what moves neither Standby nor the Idle mode (R219, R249). -/

namespace Sys2Proof.Machine

/-! ### Where the mode moves -/

@[simp] theorem ModeCore.request_mode (t : Mode) (c : ModeCore) : (c.request t).mode = c.mode := by
  unfold ModeCore.request
  split <;> rfl

theorem requestMode_mode (t : Mode) (s : State) : (requestMode t s).fsm.mode = s.fsm.mode := by
  show (requestMode t s).core.mode = s.core.mode
  rw [requestMode_core, ModeCore.request_mode]

theorem toggle_mode (s : State) : (toggle s).fsm.mode = s.fsm.mode := by
  unfold toggle
  split
  · rfl
  · split
    · split
      · rfl
      · exact requestMode_mode _ _
    · rfl

theorem runEvents_mode (ev : Byte) (s : State) : (runEvents ev s).fsm.mode = s.fsm.mode := by
  unfold runEvents
  split
  · exact toggle_mode s
  · split
    · unfold moduleMode acceptModuleMode
      split
      · split
        · rfl
        · split
          · rfl
          · split
            · exact requestMode_mode _ _
            · exact requestMode_mode _ _
      · rfl
    · split
      · exact requestMode_mode _ _
      · rfl

theorem grace_mode (s : State) : (grace s).fsm.mode = s.fsm.mode := by
  show (grace s).core.mode = s.core.mode
  rcases grace_core s with e | e <;> rw [e]
  exact ModeCore.request_mode _ _

theorem switchWhenOffline_mode (s : State) : (switchWhenOffline s).fsm.mode = s.fsm.mode :=
  congrArg ModeCore.mode (switchWhenOffline_core s)

/-- The mode is still `m`, or the Stop handler has left it: the core is then that handler's, but for the
mode that follows and the factory flag (42_mode_fsm.md R217, R246, R250). -/
def KeptOrLeft (m : Mode) (c d : ModeCore) : Prop :=
  d.mode = m ∨ ∃ n f, d = { c with next := n, factory := f }.leave

theorem KeptOrLeft.stopCommon {m : Mode} {c : ModeCore} {t : State} (n : Mode) (f : Bool)
    (h : t.core = { c with next := n, factory := f }) : KeptOrLeft m c (stopCommon t).core :=
  .inr ⟨n, f, by rw [stopCommon_core, h]⟩

section
variable {s : State}

theorem standbyFunction_keptOrLeft (ev : Byte) (hm : s.fsm.mode = .standby) :
    KeptOrLeft .standby s.core (standbyFunction ev s).core := by
  unfold standbyFunction
  split
  · exact .inl hm
  · unfold standbyInit
    rw [setTask_core, issueStandby_core]
    exact .inl hm
  · unfold standbyRun
    split
    · exact .inl hm
    · exact .inl hm
  · exact .inl hm
  · exact .stopCommon _ s.core.factory rfl

theorem bootingFunction_keptOrLeft (hm : s.fsm.mode = .booting) :
    KeptOrLeft .booting s.core (bootingFunction s).core := by
  unfold bootingFunction
  split
  · unfold bootIdle
    split
    · exact .inl hm
    · exact .inl hm
  · exact .inl hm
  · unfold bootRun
    split
    · exact .inl hm
    · exact .inl hm
  · exact .inl hm
  · exact .stopCommon s.core.next s.core.factory (setBootReady_core s)

theorem btFunction_keptOrLeft (ev : Byte) (hm : s.fsm.mode = .bluetoothA2DP) :
    KeptOrLeft .bluetoothA2DP s.core (btFunction ev s).core := by
  unfold btFunction
  split
  · exact .inl hm
  · unfold btInit
    rw [setTask_core]
    split
    · exact .inl hm
    · rw [issueBt_core]
      exact .inl hm
  · exact .inl ((runEvents_mode ev s).trans hm)
  · exact .inl hm
  · exact .stopCommon _ _ rfl

theorem spotifyFunction_keptOrLeft (ev : Byte) (hm : s.fsm.mode = .spotifyConnect) :
    KeptOrLeft .spotifyConnect s.core (spotifyFunction ev s).core := by
  unfold spotifyFunction
  split
  · exact .inl hm
  · unfold spotifyInit
    rw [setTask_core, disarmGrace_core]
    split
    · exact .inl hm
    · rw [issueSpotify_core]
      exact .inl hm
  · have graced := (grace_mode s).trans hm
    unfold spotifyRun
    dsimp only
    split
    · exact .inl ((runEvents_mode ev _).trans graced)
    · exact .inl graced
  · exact .inl hm
  · exact .stopCommon _ _ rfl

theorem factoryFunction_keptOrLeft (ev : Byte) (hm : s.fsm.mode = .factoryReset) :
    KeptOrLeft .factoryReset s.core (factoryFunction ev s).core := by
  unfold factoryFunction
  split
  · exact .inl hm
  · unfold factoryInit
    rw [setTask_core, issueFactoryReset_core]
    exact .inl hm
  · unfold factoryRun
    split
    · exact .inl hm
    · split
      · exact .inl ((toggle_mode s).trans hm)
      · exact .inl hm
  · exact .inl hm
  · have unmuted := issueUnmute_core (s.withFsm { s.fsm with volume := s.cfg.defaultVolume })
    exact .stopCommon s.core.next false
      (congrArg (fun c : ModeCore => { c with factory := false }) unmuted)

theorem netcfgFunction_keptOrLeft (ev : Byte) (hm : s.fsm.mode = .networkConfig) :
    KeptOrLeft .networkConfig s.core (netcfgFunction ev s).core := by
  unfold netcfgFunction
  split
  · exact .inl hm
  · exact .inl hm
  · unfold netcfgRun
    split
    · exact .inl hm
    · exact .inl ((runEvents_mode ev _).trans ((switchWhenOffline_mode s).trans hm))
  · unfold netcfgPause
    split
    · exact .inl hm
    · exact .inl hm
  · exact .stopCommon _ _ rfl

/-- A mode function leaves its mode by the Stop handler alone. -/
theorem modeFunction_keptOrLeft {m : Mode} (ev : Byte) (hm : s.fsm.mode = m) :
    KeptOrLeft m s.core (modeFunction m ev s).core := by
  cases m with
  | idle => exact .inl hm
  | standby => exact standbyFunction_keptOrLeft ev hm
  | booting => exact bootingFunction_keptOrLeft hm
  | bluetoothA2DP => exact btFunction_keptOrLeft ev hm
  | spotifyConnect => exact spotifyFunction_keptOrLeft ev hm
  | factoryReset => exact factoryFunction_keptOrLeft ev hm
  | networkConfig => exact netcfgFunction_keptOrLeft ev hm

end

/-! ### The life of the factory flag -/

/-- `FactoryFlag` as a statement about the variables of a mode change. -/
structure FactoryOk (c : ModeCore) : Prop where
  underWay : c.mode = .factoryReset → c.factory = true
  requested : c.next = .factoryReset → c.factory = true
  only : c.factory = true → c.mode = .factoryReset ∨ c.next = .factoryReset
  leaving : c.mode = .factoryReset → c.tasks.get .factoryReset = .stop → c.next ≠ .factoryReset
  standby : c.mode = .standby → c.next ≠ .factoryReset

theorem factoryFlag_iff (s : State) : FactoryFlag s ↔ FactoryOk s.core :=
  ⟨fun ⟨h1, h2, h3, h4, h5⟩ => ⟨h1, h2, h3, h4, h5⟩, fun ⟨h1, h2, h3, h4, h5⟩ => ⟨h1, h2, h3, h4, h5⟩⟩

/-- The factory flag's life, with the mode machine's invariant it rests on. -/
structure FactoryInv (c : ModeCore) : Prop where
  modeOk : ModeOk c
  flag : FactoryOk c

/-- Away from Stop nothing is requested, so a set flag means that a factory reset is under way. -/
theorem FactoryInv.mode_of_factory {c : ModeCore} (h : FactoryInv c) (ht : c.tasks.get c.mode ≠ .stop)
    (hf : c.factory = true) : c.mode = .factoryReset := by
  obtain underWay | requested := h.flag.only hf
  · exact underWay
  · exact (h.modeOk.nextMode ht).symm.trans requested

/-- A stop of the mode with a mode other than FactoryReset to follow. -/
theorem FactoryOk.stop {c : ModeCore} (h : FactoryInv c) {t : Mode} (ht : t ≠ .factoryReset)
    (active : c.tasks.get c.mode ≠ .stop) :
    FactoryOk { c with next := t, tasks := c.tasks.set c.mode .stop } where
  underWay := h.flag.underWay
  requested := fun e => absurd e ht
  only := fun hf => .inl (h.mode_of_factory active hf)
  leaving := fun _ _ => ht
  standby := fun _ => ht

theorem active_ne_stop {v : TaskState} (h : taskActive v = true) : v ≠ .stop := by
  rintro rfl
  cases h

theorem FactoryOk.request {c : ModeCore} (h : FactoryInv c) {t : Mode} (ht : t ≠ .factoryReset) :
    FactoryOk (c.request t) := by
  unfold ModeCore.request
  split
  · next active => exact .stop h ht (active_ne_stop active)
  · exact h.flag

/-- The mode Standby returns to is no part of the flag's life. -/
theorem FactoryOk.withPrev {c : ModeCore} (h : FactoryOk c) (p : Mode) :
    FactoryOk { c with prev := p } :=
  ⟨h.underWay, h.requested, h.only, h.leaving, h.standby⟩

/-- After an exit every sub-state is Idle. -/
theorem ModeOk.leave_idle {c : ModeCore} (h : ModeOk c) (m : Mode) :
    (c.tasks.set c.mode .idle).get m = .idle := by
  rw [Tasks.get_set]
  split
  · rfl
  · next other => exact h.tasksIdle m other

/-- An exit whose next mode fits the flag it leaves. -/
theorem FactoryOk.leave {c : ModeCore} (h : ModeOk c) {n : Mode} {f : Bool}
    (hf : f = true ↔ n = .factoryReset) : FactoryOk { c with next := n, factory := f }.leave where
  underWay := hf.mpr
  requested := hf.mpr
  only := fun e => .inl (hf.mp e)
  leaving := fun _ stop => by cases (h.leave_idle .factoryReset).symm.trans stop
  standby := fun standby e => by cases standby.symm.trans e

/-- A move to a mode other than FactoryReset keeps the factory flag's life. -/
theorem FactoryOk.move {c d : ModeCore} (h : FactoryInv c) (k : Move (· ≠ .factoryReset) c d) :
    FactoryOk d := by
  cases k with
  | setTask v notStop _ _ _ =>
    refine ⟨h.flag.underWay, h.flag.requested, h.flag.only, fun mode stop => ?_, h.flag.standby⟩
    rw [mode] at stop
    exact absurd ((Tasks.get_set_same c.tasks .factoryReset v).symm.trans stop) notStop
  | standbyOff standby _ =>
    refine ⟨h.flag.underWay, h.flag.requested, h.flag.only, fun mode _ => ?_, h.flag.standby⟩
    cases standby.symm.trans mode
  | request t ht => exact .request h ht
  | requestSave t ht hm => exact .request ⟨h.modeOk.savePrev hm, h.flag.withPrev c.mode⟩ ht
  | stop t ht active _ => exact .stop h ht active
  | leave _ _ notFactory =>
    refine .leave h.modeOk ⟨fun hf => ?_, h.flag.requested⟩
    exact (h.flag.only hf).resolve_left notFactory
  | leaveFactory stop factory =>
    rw [factory] at stop
    exact .leave h.modeOk ⟨nofun, fun next => absurd next (h.flag.leaving factory stop)⟩
  | leaveStandby t standby _ ht =>
    refine .leave h.modeOk ⟨fun hf => ?_, fun e => ?_⟩
    · obtain underWay | requested := h.flag.only hf
      · cases standby.symm.trans underWay
      · exact absurd requested (h.flag.standby standby)
    · subst e
      obtain e | e := ht
      · cases e
      · have prev := h.modeOk.prevMode
        rw [← e] at prev
        simp at prev

theorem FactoryInv.moves {c d : ModeCore} (h : FactoryInv c) (k : Moves (· ≠ .factoryReset) c d) :
    FactoryInv d := by
  induction k with
  | refl => exact h
  | tail _ last ih => exact ⟨ih.modeOk.move last, .move ih last⟩

/-- The factory trigger, in a mode other than Standby (42_mode_fsm.md R255). -/
theorem FactoryOk.trigger {c : ModeCore} (h : FactoryInv c) (unset : c.factory = false)
    (active : taskActive (c.tasks.get c.mode) = true) (hm : c.mode ≠ .standby) :
    FactoryOk ({ c with factory := true }.request .factoryReset) := by
  unfold ModeCore.request
  rw [if_pos active]
  refine ⟨fun _ => rfl, fun _ => rfl, fun _ => .inr rfl, fun mode _ => ?_, fun e => absurd e hm⟩
  cases unset.symm.trans (h.flag.underWay mode)

/-- Where a change can be requested in a mode that is not Standby's POLL, the mode is not Standby: one
that was entered in this POLL is still Idle. -/
theorem KeptOrLeft.ne_standby {m : Mode} {c d : ModeCore} (k : KeptOrLeft m c d) (h : ModeOk c)
    (hm : m ≠ .standby) (active : taskActive (d.tasks.get d.mode) = true) : d.mode ≠ .standby := by
  obtain kept | ⟨n, f, rfl⟩ := k
  · rw [kept]
    exact hm
  · have idle := h.leave_idle n
    intro _
    unfold ModeCore.leave at active
    dsimp only at active
    rw [idle] at active
    cases active

/-- What the configuration may name as a mode to enter is not FactoryReset (42_mode_fsm.md R244). -/
theorem Cfg.noFactoryTarget.targets {c : Cfg} (h : Cfg.noFactoryTarget c) :
    Targets (· ≠ .factoryReset) c :=
  ⟨fun n t ht => fun e => h.1 n (e ▸ ht), h.2, by decide, by decide, by decide, by decide⟩

theorem FactoryInv.dispatch {s : State} (hc : Cfg.noFactoryTarget s.cfg) (h : FactoryInv s.core) :
    FactoryInv (dispatch s).core := by
  have after := h.moves (modeFunction_moves _ s.fsm.event hc.targets rfl)
  have moved := modeFunction_keptOrLeft (s := s) s.fsm.event rfl
  refine ⟨h.modeOk.dispatch, ?_⟩
  rw [Machine.dispatch, clearEvent_core]
  obtain kept | ⟨notStandby, unset, active, triggered⟩ :=
    tail_core s.fsm.mode s.fsm.event (modeFunction s.fsm.mode s.fsm.event s)
  · rw [kept]
    exact after.flag
  · rw [triggered]
    exact .trigger after unset active (moved.ne_standby h.modeOk notStandby active)

theorem FactoryInv.pollOnce {s : State} (hc : Cfg.noFactoryTarget s.cfg) (h : FactoryInv s.core) :
    FactoryInv (pollOnce s).core := by
  refine FactoryInv.dispatch ?_ (by rwa [interruptPoint_core, linkStep_core])
  rwa [interruptPoint_cfg, (linkStep_safe s).cfg]

theorem resetBlock_factoryFlag (s : State) : FactoryFlag (resetBlock s) :=
  ⟨nofun, nofun, nofun, nofun, nofun⟩

theorem FactoryFlag.of_core {s t : State} (h : FactoryFlag s) (e : t.core = s.core) :
    FactoryFlag t := by
  rw [factoryFlag_iff] at h ⊢
  rwa [e]

theorem ExecEffect.factoryFlag {i : Instr} {s t : State} (k : ExecEffect i s t)
    (hc : Cfg.noFactoryTarget s.cfg) (hi : Inv s) (h : FactoryFlag s) : FactoryFlag t := by
  cases k with
  | safe k => exact h.of_core k.core
  | poll =>
    have before : FactoryInv s.core := ⟨hi.modeOk, (factoryFlag_iff s).mp h⟩
    exact (factoryFlag_iff _).mpr (before.pollOnce hc).flag
  | reset => exact resetBlock_factoryFlag s
  | mark => exact h.of_core rfl

theorem strayInput_core (x : Wire) (s : State) : (strayInput x s).core = s.core := by
  obtain ⟨bs, -, e⟩ | e := strayInput_cases x s
  · rw [e]
    exact (receiveBytes_safe bs s).core
  · rw [e]
    rfl

/-- Settles O55: a POLL's moves keep the flag's life, and the tail's trigger does where it works. -/
theorem stepKeepsTheFactoryFlag : Obligations.StepKeepsTheFactoryFlag := by
  unfold Obligations.StepKeepsTheFactoryFlag
  intro s t hc hi h k
  obtain rfl | ⟨v, ⟨i, hx⟩ | ⟨x, rfl⟩⟩ := step_cases k
  · exact h
  · exact (ExecEffect.of_exec hx).factoryFlag hc (hi.withInput v) (h.of_core rfl)
  · exact h.of_core (strayInput_core x _)

/-! ### What moves neither Standby nor the Idle mode -/

/-- Where no change can be requested, or in Standby, the tail leaves the variables of a mode change alone. -/
theorem tail_core_of_inactive {m0 : Mode} (ev : Byte) {s : State}
    (h : m0 = .standby ∨ taskActive (s.fsm.tasks.get s.fsm.mode) = false) :
    (tail m0 ev s).core = s.core := by
  obtain kept | ⟨notStandby, -, active, -⟩ := tail_core m0 ev s
  · exact kept
  · obtain standby | inactive := h
    · exact absurd standby notStandby
    · cases inactive.symm.trans active

/-- The Idle mode is inert (42_mode_fsm.md R219). -/
theorem dispatch_core_idle {s : State} (hm : s.fsm.mode = .idle) (ht : s.fsm.tasks.idle = .idle) :
    (dispatch s).core = s.core := by
  rw [dispatch, clearEvent_core, hm]
  refine tail_core_of_inactive s.fsm.event (.inr ?_)
  show taskActive (s.fsm.tasks.get s.fsm.mode) = false
  rw [hm, Tasks.get, ht]
  rfl

/-- Standby in Run reads no event but power (42_mode_fsm.md R247, R249). -/
theorem dispatch_core_standby {s : State} (hm : s.fsm.mode = .standby)
    (ht : s.fsm.tasks.standby = .run) (hev : s.fsm.event ≠ evPower) :
    (dispatch s).core = s.core := by
  have run : modeFunction .standby s.fsm.event s = s := by
    simp only [modeFunction, standbyFunction, ht]
    exact if_neg hev
  rw [dispatch, clearEvent_core, hm, run]
  exact tail_core_of_inactive s.fsm.event (.inl rfl)

/-- Up to the dispatcher a POLL changes no variable of a mode change. -/
theorem beforeDispatch_core (s : State) : (interruptPoint (linkStep s)).core = s.core := by
  rw [interruptPoint_core, linkStep_core]

end Sys2Proof.Machine
end

section
/-! PROOF. The handlers of the mode machine, each in its states: the events of the user modes
(42_mode_fsm.md R216 to R225, R245), the grace timer and the switch command (R235, R240), and the tail
(R253 to R257) where no stimulus is in store. -/

namespace Sys2Proof.Machine

/-! ### Mode changes -/

theorem taskActive_iff (v : TaskState) : taskActive v = true ↔ v ∈ [.init, .run, .pause] := by
  cases v <;> decide

/-- RequestMode in Init, Run or Pause (42_mode_fsm.md R216). -/
theorem requestMode_active {s : State} (t : Mode) (h : taskActive (s.fsm.tasks.get s.fsm.mode) = true) :
    requestMode t s = s.withFsm { s.fsm with
      nextMode := t, tasks := s.fsm.tasks.set s.fsm.mode .stop } := if_pos h

theorem active_of_run {s : State} (h : s.fsm.tasks.get s.fsm.mode = .run) :
    taskActive (s.fsm.tasks.get s.fsm.mode) = true := by
  rw [h]
  rfl

/-! ### The events of the user modes -/

section
variable {s : State}

/-- A toggle vetoed by a scan or within the debounce time (42_mode_fsm.md R222). -/
theorem toggle_ignored (h : s.fsm.scanInProgress = true ∨
    expired s.cfg s.now s.fsm.tDebounce s.cfg.debounceMs = false) : toggle s = s := by
  unfold toggle
  split
  · rfl
  · next noScan =>
    rw [if_neg]
    simpa [noScan] using h

/-- An accepted toggle to mode `t` (42_mode_fsm.md R221, R222). -/
theorem toggle_accepted {t : Mode} (noScan : s.fsm.scanInProgress = false)
    (debounced : expired s.cfg s.now s.fsm.tDebounce s.cfg.debounceMs = true)
    (target : toggleTarget s.cfg s.link.cur s.fsm.mode = some t)
    (run : s.fsm.tasks.get s.fsm.mode = .run) :
    toggle s = { s with fsm := { s.fsm with
      tDebounce := ⟨true, s.now⟩, fromModule := false, nextMode := t
      tasks := s.fsm.tasks.set s.fsm.mode .stop } } := by
  unfold toggle
  rw [noScan, debounced, target]
  exact requestMode_active t (active_of_run (s := setFromModule false
    (s.withFsm { s.fsm with tDebounce := Timer.arm s.now })) run)

/-- An accepted module mode event for mode `m` (42_mode_fsm.md R224). -/
theorem moduleMode_accepted {m : Mode} (run : s.fsm.tasks.get s.fsm.mode = .run)
    (unblocked : expired s.cfg s.now s.fsm.tBlock s.cfg.blockMs = true)
    (target : moduleModeOf s.cfg (modeNibOf s.cfg s.link.cur.b1) = some m) (other : m ≠ s.fsm.mode) :
    moduleMode s = { s with fsm := { s.fsm with
      prevMode := if m = .standby then s.fsm.mode else s.fsm.prevMode
      fromModule := true, nextMode := m, tasks := s.fsm.tasks.set s.fsm.mode .stop } } := by
  unfold moduleMode acceptModuleMode
  rw [if_pos unblocked, target]
  dsimp only
  rw [if_neg other]
  split
  · exact requestMode_active m (active_of_run (s := setFromModule true (setPrevMode s.fsm.mode s)) run)
  · exact requestMode_active m (active_of_run (s := setFromModule true s) run)

/-- A module mode event that is blocked, names no mode, or names the current one (42_mode_fsm.md R224). -/
theorem moduleMode_ignored (h : expired s.cfg s.now s.fsm.tBlock s.cfg.blockMs = false ∨
      moduleModeOf s.cfg (modeNibOf s.cfg s.link.cur.b1) = none ∨
      moduleModeOf s.cfg (modeNibOf s.cfg s.link.cur.b1) = some s.fsm.mode) : moduleMode s = s := by
  unfold moduleMode
  split
  · next unblocked =>
    obtain blocked | none | current := h
    · cases unblocked.symm.trans blocked
    · rw [none]
    · rw [current]
      exact if_pos rfl
  · rfl

/-- A power event (42_mode_fsm.md R225). -/
theorem power_run (run : s.fsm.tasks.get s.fsm.mode = .run) :
    power s = { s with fsm := { s.fsm with
      prevMode := s.fsm.mode, fromModule := false, nextMode := .standby
      tasks := s.fsm.tasks.set s.fsm.mode .stop } } :=
  requestMode_active _ (active_of_run (s := setFromModule false (setPrevMode s.fsm.mode s)) run)

theorem runEvents_other {ev : Byte} (h3 : ev ≠ 0x03) (h4 : ev ≠ 0x04) (h5 : ev ≠ 0x05) :
    runEvents ev s = s :=
  (if_neg h3).trans ((if_neg h4).trans (if_neg h5))

/-- Where a toggle leads from the modes that take one (42_mode_fsm.md R221). -/
theorem toggleTarget_eq {c : Cfg} {cur : Quad} {m : Mode}
    (hm : m ∈ [.bluetoothA2DP, .spotifyConnect, .networkConfig, .factoryReset]) :
    toggleTarget c cur m = some (
      if m = .bluetoothA2DP then .spotifyConnect
      else if m = .spotifyConnect then .bluetoothA2DP
      else if m = .factoryReset then .spotifyConnect
      else if wifiConnected c cur then .spotifyConnect else .bluetoothA2DP) := by
  simp only [List.mem_cons, List.not_mem_nil, or_false] at hm
  obtain rfl | rfl | rfl | rfl := hm <;> rfl

end

/-- Settles O41: each event by what accepts it and what makes it pointless. -/
theorem userModeEvents : Obligations.UserModeEvents := by
  unfold Obligations.UserModeEvents
  intro s run
  refine ⟨fun hm => ?_, fun _ => ⟨rfl, fun m target other unblocked =>
    moduleMode_accepted run unblocked target other, moduleMode_ignored, power_run run,
    fun ev => runEvents_other⟩⟩
  split
  · next ignored => exact toggle_ignored ignored
  · next accepted =>
    obtain ⟨noScan, debounced⟩ := not_or.mp accepted
    exact toggle_accepted (by simpa using noScan) (by simpa using debounced) (toggleTarget_eq hm) run

/-! ### The grace timer and the switch command -/

/-- The grace timer in SpotifyConnect's Run (42_mode_fsm.md R235). -/
theorem grace_run {s : State} (hm : s.fsm.mode = .spotifyConnect)
    (run : s.fsm.tasks.spotifyConnect = .run) : grace s =
      if wifiConnected s.cfg s.link.cur then
        { s with fsm := { s.fsm with tGrace := { s.fsm.tGrace with armed := false } } }
      else if s.fsm.tGrace.armed = false then
        { s with fsm := { s.fsm with tGrace := ⟨true, s.now⟩ } }
      else if s.cfg.spotifyGraceMs ≤ elapsed s.cfg s.now s.fsm.tGrace then { s with
        fsm := { s.fsm with
          tGrace := { s.fsm.tGrace with armed := false }
          fromModule := false
          nextMode := .networkConfig
          tasks := { s.fsm.tasks with spotifyConnect := .stop } } }
      else s := by
  unfold grace
  split
  · rfl
  · by_cases armed : s.fsm.tGrace.armed = true
    · have notUnarmed : ¬ s.fsm.tGrace.armed = false := by simp [armed]
      rw [if_pos armed, if_neg notUnarmed]
      split
      · have active : taskActive (s.fsm.tasks.get s.fsm.mode) = true := by rw [hm, Tasks.get, run]; rfl
        refine (requestMode_active (s := setFromModule false (disarmGrace s)) _ active).trans ?_
        show s.withFsm { s.fsm with
          tGrace := s.fsm.tGrace.disarm, fromModule := false, nextMode := .networkConfig
          tasks := s.fsm.tasks.set s.fsm.mode .stop } = _
        rw [hm]
        rfl
      · rfl
    · rw [if_neg armed, if_pos (by simpa using armed)]
      rfl

/-- The switch command of NetworkConfig where no stimulus is in store (42_mode_fsm.md R240). -/
theorem switchWhenOffline_quiet {s : State} (hq : s.quietPoints) : switchWhenOffline s =
    if wifiConnected s.cfg s.link.cur ∨ inWifiSetup s.cfg s.link.cur then
      { s with fsm := { s.fsm with netcfgDiscLatch := false } }
    else if s.fsm.netcfgDiscLatch then s
    else { (afterOffer s (frameBytes s.cfg.fcSwitchSpotify)) with
      fsm := { s.fsm with tBlock := ⟨true, s.now⟩, netcfgDiscLatch := true } } := by
  have offline : wifiDisconnected s.cfg s.link.cur =
      decide (¬ (wifiConnected s.cfg s.link.cur = true ∨ inWifiSetup s.cfg s.link.cur = true)) := by
    simp [wifiDisconnected]
  unfold switchWhenOffline issueSwitchSpotify
  rw [sendFramePoll_quiet hq, offline]
  split
  · next online =>
    simp only [online, not_true, decide_false, Bool.false_and]
    rfl
  · next disconnected =>
    simp only [disconnected, not_false_iff, decide_true, Bool.true_and]
    cases latch : s.fsm.netcfgDiscLatch
    · rfl
    · show s.withFsm { s.fsm with netcfgDiscLatch := true } = s
      rw [← latch]
      rfl

/-- Settles O42. -/
theorem graceAndOfflineSwitch : Obligations.GraceAndOfflineSwitch := by
  unfold Obligations.GraceAndOfflineSwitch
  exact fun s => ⟨grace_run, switchWhenOffline_quiet⟩

/-! ### The tail -/

/-- The factory trigger, whole (42_mode_fsm.md R255). -/
theorem factoryTrigger_eq (s : State) : factoryTrigger s =
    if s.fsm.factoryInProgress = false ∧ s.fsm.tasks.get s.fsm.mode ∈ [.init, .run, .pause] then
      { s with fsm := { s.fsm with
        factoryInProgress := true, fromModule := false, nextMode := .factoryReset
        tasks := s.fsm.tasks.set s.fsm.mode .stop } }
    else s := by
  simp only [← taskActive_iff]
  unfold factoryTrigger
  split
  · next set => rw [if_neg (by simp [set])]
  · next unset =>
    split
    · next active =>
      rw [if_pos ⟨by simpa using unset, active⟩]
      exact requestMode_active (s := setFromModule false
        (s.withFsm { s.fsm with factoryInProgress := true })) _ active
    · next inactive => rw [if_neg (fun h => inactive h.2)]

/-- What the tail's event actions are where no stimulus is in store (42_mode_fsm.md R254, R255). -/
theorem tailEvents_quiet {s : State} (hq : s.quietPoints) (ev : Byte) : tailEvents ev s =
    if ev = 0x01 then { (afterOffer s
        [0xFF, 0x46, 0x53, 0x02, s.cfg.fcVolUp.cmd, s.cfg.fcVolUp.data]) with
      link := { s.link with tEcho := ⟨true, s.now⟩ } }
    else if ev = 0x02 then { (afterOffer s
        [0xFF, 0x46, 0x53, 0x02, s.cfg.fcVolDown.cmd, s.cfg.fcVolDown.data]) with
      link := { s.link with tEcho := ⟨true, s.now⟩ } }
    else if ev = 0x06 ∧ s.fsm.factoryInProgress = false ∧
        s.fsm.tasks.get s.fsm.mode ∈ [.init, .run, .pause] then
      { s with fsm := { s.fsm with
        factoryInProgress := true
        fromModule := false
        nextMode := .factoryReset
        tasks := s.fsm.tasks.set s.fsm.mode .stop } }
    else s := by
  unfold tailEvents issueVolUp issueVolDown
  simp only [sendFramePoll_quiet hq, factoryTrigger_eq, ite_and]
  rfl

/-- The acknowledgment and the event actions of a tail never meet in one tick. -/
theorem tailEvents_ackModuleVolume (ev : Byte) (s : State) :
    tailEvents ev (ackModuleVolume ev s) = ackModuleVolume ev (tailEvents ev s) := by
  by_cases volumeSet : ev = evModuleVolumeSet
  · subst volumeSet
    rfl
  · have ack : ∀ t, ackModuleVolume ev t = t := fun t => if_neg volumeSet
    rw [ack, ack]

/-- The tail with its event actions first. -/
theorem tail_eq (m0 : Mode) (ev : Byte) (s : State) : tail m0 ev s =
    diagCount (ackModuleVolume ev (if m0 = .standby then s else tailEvents ev s)) := by
  unfold tail
  dsimp only
  split
  · rfl
  · rw [tailEvents_ackModuleVolume]

/-- The event actions of a tail leave the configuration, the counter and the inputs in store alone. -/
theorem tailEvents_quiet_keeps {s t : State} (m0 : Mode) (ev : Byte) (hq : s.quietPoints)
    (ht : (if m0 = .standby then s else tailEvents ev s) = t) :
    t.cfg = s.cfg ∧ t.fsm.diagCounter = s.fsm.diagCounter ∧ t.input = s.input := by
  subst ht
  rw [tailEvents_quiet hq]
  split
  · exact ⟨rfl, rfl, rfl⟩
  · split
    · exact ⟨rfl, rfl, rfl⟩
    · split
      · exact ⟨rfl, rfl, rfl⟩
      · split
        · exact ⟨rfl, rfl, rfl⟩
        · exact ⟨rfl, rfl, rfl⟩

/-- The tail where no stimulus is in store (42_mode_fsm.md R253 to R257). -/
theorem tail_quiet (m0 : Mode) (ev : Byte) {s : State} (hq : s.quietPoints) :
    tail m0 ev s = tailAction m0 ev s := by
  unfold tailAction
  rw [tail_eq, ← tailEvents_quiet hq]
  generalize ht : (if m0 = .standby then s else tailEvents ev s) = t
  obtain ⟨cfg, count, input⟩ := tailEvents_quiet_keeps m0 ev hq ht
  have quiet : t.quietPoints := State.quietPoints_of_input input hq
  rw [ackModuleVolume_eq, diagCount_quiet (by exact quiet), ← cfg, ← count]
  by_cases counted : t.cfg.configDiagCounter = true
  · rw [if_pos counted, if_pos counted]
    rfl
  · rw [if_neg counted, if_neg counted]
    rfl

/-- Settles O43. -/
theorem tailActsOnTheEvent : Obligations.TailActsOnTheEvent := by
  unfold Obligations.TailActsOnTheEvent
  exact fun m0 ev _ hq => tail_quiet m0 ev hq

end Sys2Proof.Machine
end

section
/-! PROOF. A property that each single write of the link step keeps, the link step keeps, whatever is run at
its interrupt points (40_serial_link.md R116, R129 to R135); with it, the events the link posts and the ones
it does not (42_mode_fsm.md R219, R247, R249). -/

namespace Sys2Proof.Machine

/-! ### The writes of the link step -/

/-- The registers the reactions mirror the snapshot to (40_serial_link.md R132 to R135). -/
def mirrorRegisters (c : Cfg) : List (Fin 12) :=
  [c.regWifiBt, c.regMode, c.regSpotify, c.regVolumeMute, c.regError]

/-- Each single write of the link step keeps `P`: its interrupt points, the bytes it offers, the
synchronizer, the link, a mirror, the module's volume and the two events it posts. -/
structure LinkClosed (P : State → Prop) : Prop where
  point : ∀ {s}, P s → P (interruptPoint s)
  offer : ∀ {s} bs, P s → P (afterOffer s bs)
  sync : ∀ {s} v, P s → P (s.withSync v)
  link : ∀ {s} v, P s → P (s.withLink v)
  mirror : ∀ {s i} v, i ∈ mirrorRegisters s.cfg → P s → P (s.withMem (s.mem.write i.val v))
  volume : ∀ {s} v, P s → P (s.withFsm { s.fsm with volume := v })
  event : ∀ {s e}, e = evSetModeFromModule ∨ e = evModuleVolumeSet → P s → P (postEvent e s)

section
variable {P : State → Prop} {s : State}

theorem LinkClosed.sendFramePoll (h : LinkClosed P) (p : CmdPair) (hs : P s) : P (sendFramePoll p s) := by
  unfold Machine.sendFramePoll
  generalize frameBytes p = bs
  induction bs generalizing s with
  | nil => exact hs
  | cons b bs ih =>
    refine ih (s := emit b (interruptPoint s)) ?_
    rw [emit_eq]
    exact h.offer [b] (h.point hs)

theorem LinkClosed.regWritePoll (h : LinkClosed P) {i : Fin 12} (v : Byte)
    (hi : i ∈ mirrorRegisters s.cfg) (hs : P s) : P (regWritePoll i v s) := by
  rw [regWritePoll_eq]
  exact h.mirror v (by rwa [interruptPoint_cfg]) (h.point hs)

theorem LinkClosed.statusRequestCheck (h : LinkClosed P) (hs : P s) : P (statusRequestCheck s) := by
  unfold Machine.statusRequestCheck issueStatusReq
  split
  · exact h.sendFramePoll _ (h.link _ hs)
  · exact hs

theorem LinkClosed.syncCall (h : LinkClosed P) (hs : P s) : P (syncCall s).2 := by
  refine syncLoop_keeps (P := P) (fun _ => h.point) (fun t b rest ht _ => ?_) _ _ s hs
  rw [syncByte_eq]
  exact h.link _ (h.sync { (syncByte b (setFifo rest t)).2.sync with rxFifo := rest } ht)

theorem LinkClosed.react1 (h : LinkClosed P) (hs : P s) : P (react1 s) := by
  unfold Machine.react1
  extract_lets t u v
  have ht : P t := h.regWritePoll _ (by simp [mirrorRegisters]) hs
  have hu : P u := h.regWritePoll _ (by simp [mirrorRegisters]) ht
  have hv : P v := by
    unfold v
    split
    · exact h.event (.inl rfl) hu
    · exact hu
  exact h.link _ hv

theorem LinkClosed.react2 (h : LinkClosed P) (hs : P s) : P (react2 s) := by
  unfold Machine.react2
  extract_lets vol t u
  have ht : P t := h.regWritePoll _ (by simp [mirrorRegisters]) hs
  have hu : P u := by
    unfold u applyModuleVolume
    split
    · exact ht
    · dsimp only
      split
      · exact h.volume vol ht
      · exact h.link _ (h.event (.inr rfl) (h.volume vol ht))
  exact h.link _ hu

theorem LinkClosed.diff (h : LinkClosed P) (hs : P s) : P (diff s) := by
  unfold Machine.diff
  split
  · exact h.link _ (h.regWritePoll _ (by simp [mirrorRegisters]) hs)
  · split
    · exact h.react1 hs
    · split
      · exact h.react2 hs
      · split
        · exact h.link _ (h.regWritePoll _ (by simp [mirrorRegisters]) hs)
        · exact hs

theorem LinkClosed.linkStep (h : LinkClosed P) (hs : P s) : P (linkStep s) := by
  unfold Machine.linkStep
  dsimp only
  split
  · exact h.diff (h.syncCall (h.statusRequestCheck hs))
  · exact h.syncCall (h.statusRequestCheck hs)

end

theorem linkStep_quietPoints {s : State} (hq : s.quietPoints) : (linkStep s).quietPoints := by
  refine LinkClosed.linkStep (P := State.quietPoints) ?_ hq
  refine ⟨fun h => ?_, fun _ h => h, fun _ h => h, fun _ h => h, fun _ _ h => h, fun _ h => h,
    fun _ h => h⟩
  rwa [interruptPoint_quiet h]

/-- The link step leaves the diagnostic counter alone. -/
theorem linkStep_diagCounter (s : State) : (linkStep s).fsm.diagCounter = s.fsm.diagCounter := by
  refine LinkClosed.linkStep (P := fun t => t.fsm.diagCounter = s.fsm.diagCounter) ?_ rfl
  refine ⟨fun h => ?_, fun _ h => h, fun _ h => h, fun _ h => h, fun _ _ h => h, fun _ h => h,
    fun _ h => h⟩
  rwa [(interruptPoint_safe _).fsm]

/-! ### The power event -/

theorem runIpStim_event_ne {e : Byte} (i : IpStim) {s : State} (hi : i ≠ .post e)
    (hs : s.fsm.event ≠ e) : (runIpStim i s).fsm.event ≠ e := by
  cases i with
  | post x => exact fun hx => hi (congrArg IpStim.post hx)
  | tick | tick100 | scan | txdrop | baddrw | baddrr | berr => exact hs
  | rxb b => rwa [runIpStim, show receiveByte b s = _ from receiveBytes_eq [b] s]
  | bwr b => rwa [runIpStim, (busWrite_safe b s).fsm]
  | brd => rwa [runIpStim, (busRead_safe s).fsm]
  | bstop p => rwa [runIpStim, (busStop_safe p s).fsm]
  | baf => rwa [runIpStim, (busAckFail_safe s).fsm]

/-- Where event `e` is in store at no interrupt point, one makes the slot hold `e` only where it did. -/
theorem interruptPoint_event_ne {e : Byte} {s : State} (h : s.inStore (· ≠ .post e))
    (hs : s.fsm.event ≠ e) : (interruptPoint s).fsm.event ≠ e :=
  interruptPoint_rel (R := fun s t => s.fsm.event ≠ e → t.fsm.event ≠ e) (fun _ => id)
    (fun h k => k ∘ h) (fun _ _ => id) (fun i _ hi => runIpStim_event_ne i hi) h hs

/-- The link posts no event but the module's two (40_serial_link.md R133, R134). -/
theorem linkStep_event_ne {e : Byte} {s : State} (h4 : e ≠ evSetModeFromModule)
    (h7 : e ≠ evModuleVolumeSet) (h : s.inStore (· ≠ .post e)) (hs : s.fsm.event ≠ e) :
    (linkStep s).inStore (· ≠ .post e) ∧ (linkStep s).fsm.event ≠ e := by
  refine LinkClosed.linkStep (P := fun t => t.inStore (· ≠ .post e) ∧ t.fsm.event ≠ e) ?_ ⟨h, hs⟩
  refine ⟨fun ⟨store, slot⟩ => ⟨interruptPoint_inStore store, interruptPoint_event_ne store slot⟩,
    fun _ h => h, fun _ h => h, fun _ h => h, fun _ _ h => h, fun _ h => h, fun posted h => ⟨h.1, ?_⟩⟩
  obtain rfl | rfl := posted
  · exact h4.symm
  · exact h7.symm

/-- Equal variables of a mode change, field by field. -/
theorem core_fields {s t : State} (h : t.core = s.core) : t.fsm.mode = s.fsm.mode ∧
    t.fsm.nextMode = s.fsm.nextMode ∧ t.fsm.prevMode = s.fsm.prevMode ∧ t.fsm.tasks = s.fsm.tasks :=
  ⟨congrArg ModeCore.mode h, congrArg ModeCore.next h, congrArg ModeCore.prev h,
    congrArg ModeCore.tasks h⟩

/-- Settles O45: neither dispatcher moves a variable of a mode change, and the link posts no power event. -/
theorem standbyHeedsPowerAlone : Obligations.StandbyHeedsPowerAlone := by
  unfold Obligations.StandbyHeedsPowerAlone
  intro s
  have before := beforeDispatch_core s
  obtain ⟨mode, -, -, tasks⟩ := core_fields before
  refine ⟨fun hm ht => ⟨_, rfl, core_fields (s := s) ?_⟩,
    fun hm ht hev => ⟨_, rfl, core_fields (s := s) ?_⟩, fun hev store => ?_⟩
  · exact (dispatch_core_idle (mode.trans hm) (by rw [tasks, ht])).trans before
  · exact (dispatch_core_standby (mode.trans hm) (by rw [tasks, ht]) hev).trans before
  · have notPosted : s.inStore (· ≠ .post 0x05) := fun is his i hi e => store is his (e ▸ hi)
    obtain ⟨store', slot⟩ := linkStep_event_ne (by decide) (by decide) notPosted hev
    exact interruptPoint_event_ne store' slot

end Sys2Proof.Machine
end

section
/-! PROOF. A POLL where no stimulus is in store, by the sub-state its mode is in (42_mode_fsm.md R210 to
R250), and what follows from it over several POLLs: a requested mode's entry (R217, R262) and the end of
Booting (R229, R230). -/

namespace Sys2Proof.Machine

/-! ### The dispatcher -/

theorem modeFunction_quietPoints (m : Mode) (ev : Byte) {s : State} (hq : s.quietPoints) :
    (modeFunction m ev s).quietPoints :=
  ((modeFunction_writes (awaits := True) m ev s fun _ _ => trivial).quiet hq).1

/-- The end of a POLL where no stimulus is in store (42_mode_fsm.md R212, R214). -/
theorem clearEvent_tail_quiet (m0 : Mode) (ev : Byte) {s : State} (hq : s.quietPoints) :
    clearEvent (tail m0 ev s) = pollEnd m0 ev s := by
  have quiet := ((tail_writes (awaits := True) m0 ev s).quiet hq).1
  rw [clearEvent, interruptPoint_quiet quiet, tail_quiet m0 ev hq]
  rfl

/-- The dispatcher where no stimulus is in store: the latched mode's function, and the end of the POLL. -/
theorem dispatch_quiet {s : State} (hq : s.quietPoints) : dispatch s =
    pollEnd s.fsm.mode s.fsm.event (modeFunction s.fsm.mode s.fsm.event s) :=
  clearEvent_tail_quiet _ _ (modeFunction_quietPoints _ _ hq)

/-- A POLL where no stimulus is in store and its mode function makes `t` of the state `u` the link step
left. -/
theorem exec_poll_of_modeFunction {s u t : State} (hq : s.quietPoints) (hu : u = linkStep s)
    (h : u.quietPoints → modeFunction u.fsm.mode u.fsm.event u = t) :
    exec .poll s = .next (pollEnd u.fsm.mode u.fsm.event t) := by
  have quiet : u.quietPoints := hu ▸ linkStep_quietPoints hq
  show Host.Outcome.next (dispatch (interruptPoint (linkStep s))) = _
  rw [← hu, interruptPoint_quiet quiet, dispatch_quiet quiet, h quiet]

/-! ### The mode functions by sub-state -/

section
variable {s : State}

theorem stopCommon_of_mode {m : Mode} (hm : s.fsm.mode = m) : stopCommon s =
    { s with fsm := { s.fsm with tasks := s.fsm.tasks.set m .idle, mode := s.fsm.nextMode } } := by
  subst hm
  rfl

theorem setBootReady_quiet (hq : s.quietPoints) : setBootReady s =
    s.withMem (s.mem.write s.cfg.regBootFlags.val
      (s.mem.read s.cfg.regBootFlags.val ||| BitVec.twoPow 8 s.cfg.bootReadyBit.val)) := by
  rw [setBootReady, interruptPoint_quiet hq]
  exact State.regWrite_storage s _ _

/-- At Stop a mode does its exit action (42_mode_fsm.md R217, R229, R232, R236, R242, R246, R250). -/
theorem modeFunction_stop (ev : Byte) (hq : s.quietPoints) (ht : s.fsm.tasks.get s.fsm.mode = .stop)
    (hm : s.fsm.mode ≠ .idle) : modeFunction s.fsm.mode ev s = exitAction s := by
  unfold exitAction
  cases m : s.fsm.mode <;> rw [m] at ht
  case idle => exact absurd m hm
  case standby =>
    have stop : s.fsm.tasks.standby = .stop := ht
    simp only [modeFunction, standbyFunction, stop, standbyStop]
    exact stopCommon_of_mode (m := .standby) m
  case booting =>
    have stop : s.fsm.tasks.booting = .stop := ht
    simp only [modeFunction, bootingFunction, stop, bootStop, setBootReady_quiet hq]
    exact stopCommon_of_mode (m := .booting) m
  case bluetoothA2DP =>
    have stop : s.fsm.tasks.bluetoothA2DP = .stop := ht
    simp only [modeFunction, btFunction, stop]
    exact stopCommon_of_mode (m := .bluetoothA2DP) m
  case spotifyConnect =>
    have stop : s.fsm.tasks.spotifyConnect = .stop := ht
    simp only [modeFunction, spotifyFunction, stop]
    exact stopCommon_of_mode (m := .spotifyConnect) m
  case factoryReset =>
    have stop : s.fsm.tasks.factoryReset = .stop := ht
    have quiet : (s.withFsm { s.fsm with volume := s.cfg.defaultVolume }).quietPoints := hq
    simp only [modeFunction, factoryFunction, stop, factoryStop, issueUnmute, sendFramePoll_quiet quiet]
    exact stopCommon_of_mode (m := .factoryReset) m
  case networkConfig =>
    have stop : s.fsm.tasks.networkConfig = .stop := ht
    simp only [modeFunction, netcfgFunction, stop]
    exact stopCommon_of_mode (m := .networkConfig) m

/-- At Idle a mode goes to Init; Booting waits for the link, the Idle mode is inert (42_mode_fsm.md R215,
R219, R227). -/
theorem modeFunction_idle (ev : Byte) (ht : s.fsm.tasks.get s.fsm.mode = .idle) :
    modeFunction s.fsm.mode ev s =
      if s.fsm.mode = .idle ∨ (s.fsm.mode = .booting ∧ s.link.ready = false) then s
      else { s with fsm := { s.fsm with tasks := s.fsm.tasks.set s.fsm.mode .init } } := by
  cases m : s.fsm.mode <;> rw [m] at ht
  case idle => rfl
  case standby =>
    have idle : s.fsm.tasks.standby = .idle := ht
    simp only [modeFunction, standbyFunction, idle]
    rfl
  case booting =>
    have idle : s.fsm.tasks.booting = .idle := ht
    simp only [modeFunction, bootingFunction, idle, bootIdle]
    cases s.link.ready
    · rfl
    · rfl
  case bluetoothA2DP =>
    have idle : s.fsm.tasks.bluetoothA2DP = .idle := ht
    simp only [modeFunction, btFunction, idle]
    rfl
  case spotifyConnect =>
    have idle : s.fsm.tasks.spotifyConnect = .idle := ht
    simp only [modeFunction, spotifyFunction, idle]
    rfl
  case factoryReset =>
    have idle : s.fsm.tasks.factoryReset = .idle := ht
    simp only [modeFunction, factoryFunction, idle]
    rfl
  case networkConfig =>
    have idle : s.fsm.tasks.networkConfig = .idle := ht
    simp only [modeFunction, netcfgFunction, idle]
    rfl

theorem setFromModule_unset (h : s.fsm.fromModule = false) : setFromModule false s = s := by
  show s.withFsm { s.fsm with fromModule := false } = s
  rw [← h]
  rfl

/-- At Init a mode does its entry action (42_mode_fsm.md R227, R231, R233, R238, R243, R248). -/
theorem modeFunction_init (ev : Byte) (hq : s.quietPoints) (ht : s.fsm.tasks.get s.fsm.mode = .init)
    (hm : s.fsm.mode ≠ .idle) : modeFunction s.fsm.mode ev s = entryAction s := by
  unfold entryAction
  cases m : s.fsm.mode <;> rw [m] at ht
  case idle => exact absurd m hm
  case standby =>
    have init : s.fsm.tasks.standby = .init := ht
    have quiet : (setFromModule false s).quietPoints := hq
    simp only [modeFunction, standbyFunction, init, standbyInit, issueStandby, sendFramePoll_quiet quiet]
    rfl
  case booting =>
    have init : s.fsm.tasks.booting = .init := ht
    simp only [modeFunction, bootingFunction, init]
    rfl
  case bluetoothA2DP =>
    have init : s.fsm.tasks.bluetoothA2DP = .init := ht
    simp only [modeFunction, btFunction, init, btInit, issueBt, sendFramePoll_quiet hq]
    split
    · rfl
    · next own =>
      conv_lhs => rw [← setFromModule_unset (s := s) (by simpa using own)]
      rfl
  case spotifyConnect =>
    have init : s.fsm.tasks.spotifyConnect = .init := ht
    simp only [modeFunction, spotifyFunction, init, spotifyInit, issueSpotify, sendFramePoll_quiet hq]
    split
    · rfl
    · next own =>
      conv_lhs => rw [← setFromModule_unset (s := s) (by simpa using own)]
      rfl
  case factoryReset =>
    have init : s.fsm.tasks.factoryReset = .init := ht
    have quiet : (setFromModule false s).quietPoints := hq
    simp only [modeFunction, factoryFunction, init, factoryInit, issueFactoryReset,
      sendFramePoll_quiet quiet]
    rfl
  case networkConfig =>
    have init : s.fsm.tasks.networkConfig = .init := ht
    simp only [modeFunction, netcfgFunction, init]
    rfl

/-- In Run a mode handles the tick and the event (42_mode_fsm.md R229, R232, R234, R239, R245, R249). -/
theorem modeFunction_run (ev : Byte) (ht : s.fsm.tasks.get s.fsm.mode = .run)
    (hm : s.fsm.mode ≠ .idle) : modeFunction s.fsm.mode ev s = runAction ev s := by
  unfold runAction
  cases m : s.fsm.mode <;> rw [m] at ht
  case idle => exact absurd m hm
  case standby =>
    have run : s.fsm.tasks.standby = .run := ht
    simp only [modeFunction, standbyFunction, run]
    rfl
  case booting =>
    have run : s.fsm.tasks.booting = .run := ht
    simp only [modeFunction, bootingFunction, run]
    rfl
  case bluetoothA2DP =>
    have run : s.fsm.tasks.bluetoothA2DP = .run := ht
    simp only [modeFunction, btFunction, run]
  case spotifyConnect =>
    have run : s.fsm.tasks.spotifyConnect = .run := ht
    simp only [modeFunction, spotifyFunction, run]
    rfl
  case factoryReset =>
    have run : s.fsm.tasks.factoryReset = .run := ht
    simp only [modeFunction, factoryFunction, run, factoryRun, Bool.and_eq_true, Bool.not_eq_true']
    rfl
  case networkConfig =>
    have run : s.fsm.tasks.networkConfig = .run := ht
    simp only [modeFunction, netcfgFunction, run]
    rfl

/-- NetworkConfig at Pause waits for the reconnection error to clear (42_mode_fsm.md R241). -/
theorem modeFunction_pause (ev : Byte) (ht : s.fsm.tasks.networkConfig = .pause) :
    modeFunction .networkConfig ev s =
      if reconnErr s.cfg s.link.cur then s
      else { s with fsm := { s.fsm with tasks := { s.fsm.tasks with networkConfig := .run } } } := by
  simp only [modeFunction, netcfgFunction, ht]
  rfl

end

/-! ### A POLL by the sub-state of its mode -/

/-- Settles O37. -/
theorem pollAtStopLeavesTheMode : Obligations.PollAtStopLeavesTheMode := by
  unfold Obligations.PollAtStopLeavesTheMode
  exact fun s u hq hu ht hm =>
    exec_poll_of_modeFunction hq hu fun quiet => modeFunction_stop _ quiet ht hm

/-- Settles O38. -/
theorem pollAtIdleEntersInit : Obligations.PollAtIdleEntersInit := by
  unfold Obligations.PollAtIdleEntersInit
  exact fun s u hq hu ht => exec_poll_of_modeFunction hq hu fun _ => modeFunction_idle _ ht

/-- Settles O39. -/
theorem pollAtInitRunsEntryAction : Obligations.PollAtInitRunsEntryAction := by
  unfold Obligations.PollAtInitRunsEntryAction
  exact fun s u hq hu ht hm =>
    exec_poll_of_modeFunction hq hu fun quiet => modeFunction_init _ quiet ht hm

/-- Settles O40. -/
theorem pollAtRunHandlesTheTick : Obligations.PollAtRunHandlesTheTick := by
  unfold Obligations.PollAtRunHandlesTheTick
  refine fun s u hq hu => ⟨fun ht hm => exec_poll_of_modeFunction hq hu fun _ =>
    modeFunction_run _ ht hm, fun ht hm => exec_poll_of_modeFunction hq hu fun _ => ?_⟩
  rw [hm] at ht ⊢
  exact modeFunction_pause _ ht

end Sys2Proof.Machine
end

section
/-! PROOF. Two dispatchers in lockstep: the mode functions and the tail's event actions keep a relation
between states that each single write of the poll agent keeps (42_mode_fsm.md R213 to R255). None of them
reads the event slot or the diagnostic counter: the latched event is their argument (R212), and the counter is
the end of the tail's alone (R257). -/

namespace Sys2Proof.Machine

/-! ### Single writes in lockstep -/

/-- A write of the mode machine's variables that neither reads nor changes the event slot and the
diagnostic counter. -/
def SlotBlind (g : Fsm → Fsm) : Prop :=
  ∀ f e d, g { f with event := e, diagCounter := d } = { g f with event := e, diagCounter := d }

theorem SlotBlind.diagCounter {g : Fsm → Fsm} (h : SlotBlind g) (f : Fsm) :
    (g f).diagCounter = f.diagCounter := by
  have kept := congrArg (·.diagCounter) (h f f.event f.diagCounter)
  exact kept

theorem SlotBlind.event {g : Fsm → Fsm} (h : SlotBlind g) (f : Fsm) (e : Byte) :
    g { f with event := e } = { g f with event := e } := by
  calc g { f with event := e }
      = { g f with event := e, diagCounter := f.diagCounter } := h f e f.diagCounter
    _ = { g f with event := e } := by rw [← h.diagCounter f]

/-- `R` relates states that look alike to the mode functions, and each single write of theirs keeps it. -/
structure Lockstep (R : State → State → Prop) : Prop where
  cfg : ∀ {s s'}, R s s' → s'.cfg = s.cfg
  now : ∀ {s s'}, R s s' → s'.now = s.now
  link : ∀ {s s'}, R s s' → s'.link = s.link
  fsm : ∀ {s s'}, R s s' →
    s'.fsm = { s.fsm with event := s'.fsm.event, diagCounter := s'.fsm.diagCounter }
  point : ∀ {s s'}, R s s' → R (interruptPoint s) (interruptPoint s')
  offer : ∀ {s s'} bs, R s s' → R (afterOffer s bs) (afterOffer s' bs)
  bootFlags : ∀ {s s'}, R s s' → R (setBootReady s) (setBootReady s')
  write : ∀ {s s' g}, SlotBlind g → R s s' → R (s.withFsm (g s.fsm)) (s'.withFsm (g s'.fsm))
  setLink : ∀ {s s' v}, v.tReq = s.link.tReq → R s s' → R (s.withLink v) (s'.withLink v)

namespace Lockstep

section
variable {R : State → State → Prop} {s s' : State}

theorem mode (h : Lockstep R) (r : R s s') : s'.fsm.mode = s.fsm.mode := by rw [h.fsm r]
theorem tasks (h : Lockstep R) (r : R s s') : s'.fsm.tasks = s.fsm.tasks := by rw [h.fsm r]
theorem fromModule (h : Lockstep R) (r : R s s') : s'.fsm.fromModule = s.fsm.fromModule := by
  rw [h.fsm r]

theorem setTask (h : Lockstep R) (m : Mode) (v : TaskState) (r : R s s') :
    R (setTask m v s) (setTask m v s') :=
  h.write (g := fun f => { f with tasks := f.tasks.set m v }) (fun _ _ _ => rfl) r

theorem setFromModule (h : Lockstep R) (v : Bool) (r : R s s') :
    R (setFromModule v s) (setFromModule v s') :=
  h.write (g := fun f => { f with fromModule := v }) (fun _ _ _ => rfl) r

theorem setNextMode (h : Lockstep R) (m : Mode) (r : R s s') :
    R (setNextMode m s) (setNextMode m s') :=
  h.write (g := fun f => { f with nextMode := m }) (fun _ _ _ => rfl) r

theorem setPrevMode (h : Lockstep R) (m : Mode) (r : R s s') :
    R (setPrevMode m s) (setPrevMode m s') :=
  h.write (g := fun f => { f with prevMode := m }) (fun _ _ _ => rfl) r

theorem disarmGrace (h : Lockstep R) (r : R s s') : R (disarmGrace s) (disarmGrace s') :=
  h.write (g := fun f => { f with tGrace := f.tGrace.disarm }) (fun _ _ _ => rfl) r

theorem setDiscLatch (h : Lockstep R) (v : Bool) (r : R s s') :
    R (setDiscLatch v s) (setDiscLatch v s') :=
  h.write (g := fun f => { f with netcfgDiscLatch := v }) (fun _ _ _ => rfl) r

theorem stopCommon (h : Lockstep R) (r : R s s') : R (stopCommon s) (stopCommon s') :=
  h.write (g := fun f => { f with tasks := f.tasks.set f.mode .idle, mode := f.nextMode })
    (fun _ _ _ => rfl) r

theorem armBlock (h : Lockstep R) (r : R s s') : R (armBlock s) (armBlock s') := by
  unfold Machine.armBlock
  rw [h.now r]
  exact h.write (g := fun f => { f with tBlock := Timer.arm s.now }) (fun _ _ _ => rfl) r

theorem requestMode (h : Lockstep R) (t : Mode) (r : R s s') :
    R (requestMode t s) (requestMode t s') := by
  unfold Machine.requestMode
  rw [h.tasks r, h.mode r]
  split
  · exact h.setTask _ _ (h.setNextMode t r)
  · exact r

/-! ### Sends in lockstep -/

theorem sendFramePoll (h : Lockstep R) (p : CmdPair) (r : R s s') :
    R (sendFramePoll p s) (sendFramePoll p s') := by
  unfold Machine.sendFramePoll
  generalize frameBytes p = bs
  induction bs generalizing s s' with
  | nil => exact r
  | cons b bs ih =>
    refine ih (s := emit b (interruptPoint s)) (s' := emit b (interruptPoint s')) ?_
    rw [emit_eq, emit_eq]
    exact h.offer [b] (h.point r)

/-- A mode command, named by the configuration, and the blocking timer. -/
theorem sendThenBlock (h : Lockstep R) (p : Cfg → CmdPair) (r : R s s') :
    R (Machine.armBlock (Machine.sendFramePoll (p s.cfg) s))
      (Machine.armBlock (Machine.sendFramePoll (p s'.cfg) s')) := by
  rw [h.cfg r]
  exact h.armBlock (h.sendFramePoll _ r)

/-- A volume key's frame, named by the configuration, and the echo window. -/
theorem sendThenEcho (h : Lockstep R) (p : Cfg → CmdPair) (r : R s s') :
    R (armEcho (Machine.sendFramePoll (p s.cfg) s))
      (armEcho (Machine.sendFramePoll (p s'.cfg) s')) := by
  rw [h.cfg r]
  have sent := h.sendFramePoll (p s.cfg) r
  unfold armEcho
  rw [h.now sent, h.link sent]
  exact h.setLink rfl sent

theorem issueFactoryReset (h : Lockstep R) (r : R s s') :
    R (issueFactoryReset s) (issueFactoryReset s') := by
  unfold Machine.issueFactoryReset
  rw [h.cfg r]
  have sent := h.sendFramePoll s.cfg.fcFactoryReset r
  dsimp only
  rw [h.link sent]
  exact h.setLink rfl sent

theorem issueUnmute (h : Lockstep R) (r : R s s') : R (issueUnmute s) (issueUnmute s') := by
  unfold Machine.issueUnmute
  rw [h.cfg r]
  exact h.sendFramePoll _ r

/-! ### The events of the user modes in lockstep -/

theorem acceptToggle (h : Lockstep R) (t : Mode) (r : R s s') :
    R (acceptToggle t s) (acceptToggle t s') := by
  unfold Machine.acceptToggle
  rw [h.now r]
  exact h.requestMode t (h.setFromModule false
    (h.write (g := fun f => { f with tDebounce := Timer.arm s.now }) (fun _ _ _ => rfl) r))

theorem toggle (h : Lockstep R) (r : R s s') : R (toggle s) (toggle s') := by
  have scan : s'.fsm.scanInProgress = s.fsm.scanInProgress := by rw [h.fsm r]
  have debounce : s'.fsm.tDebounce = s.fsm.tDebounce := by rw [h.fsm r]
  unfold Machine.toggle
  rw [scan, debounce, h.cfg r, h.now r, h.link r, h.mode r]
  split
  · exact r
  · split
    · cases toggleTarget s.cfg s.link.cur s.fsm.mode with
      | none => exact r
      | some t => exact h.acceptToggle t r
    · exact r

theorem acceptModuleMode (h : Lockstep R) (t : Mode) (r : R s s') :
    R (acceptModuleMode t s) (acceptModuleMode t s') := by
  unfold Machine.acceptModuleMode
  rw [h.mode r]
  split
  · exact h.requestMode t (h.setFromModule true (h.setPrevMode _ r))
  · exact h.requestMode t (h.setFromModule true r)

theorem moduleMode (h : Lockstep R) (r : R s s') : R (moduleMode s) (moduleMode s') := by
  have block : s'.fsm.tBlock = s.fsm.tBlock := by rw [h.fsm r]
  unfold Machine.moduleMode
  rw [block, h.cfg r, h.now r, h.link r, h.mode r]
  split
  · cases moduleModeOf s.cfg (modeNibOf s.cfg s.link.cur.b1) with
    | none => exact r
    | some t =>
      dsimp only
      split
      · exact r
      · exact h.acceptModuleMode t r
  · exact r

theorem power (h : Lockstep R) (r : R s s') : R (power s) (power s') := by
  unfold Machine.power
  rw [h.mode r]
  exact h.requestMode _ (h.setFromModule false (h.setPrevMode _ r))

theorem runEvents (h : Lockstep R) (ev : Byte) (r : R s s') : R (runEvents ev s) (runEvents ev s') := by
  unfold Machine.runEvents
  split
  · exact h.toggle r
  · split
    · exact h.moduleMode r
    · split
      · exact h.power r
      · exact r

/-! ### The mode functions in lockstep -/

theorem standbyFunction (h : Lockstep R) (ev : Byte) (r : R s s') :
    R (standbyFunction ev s) (standbyFunction ev s') := by
  unfold Machine.standbyFunction
  rw [h.tasks r]
  cases s.fsm.tasks.standby with
  | idle => exact h.setTask _ _ r
  | init => exact h.setTask _ _ (h.sendThenBlock Cfg.fcStandby (h.setFromModule false r))
  | run =>
    unfold standbyRun
    dsimp only
    split
    · exact h.setTask _ _ r
    · exact r
  | pause => exact r
  | stop =>
    have prev : s'.fsm.prevMode = s.fsm.prevMode := by rw [h.fsm r]
    unfold standbyStop
    rw [h.cfg r, h.link r, prev]
    exact h.stopCommon (h.setNextMode _ r)

theorem bootingFunction (h : Lockstep R) (r : R s s') : R (bootingFunction s) (bootingFunction s') := by
  unfold Machine.bootingFunction
  rw [h.tasks r]
  cases s.fsm.tasks.booting with
  | idle =>
    unfold bootIdle
    dsimp only
    rw [h.link r]
    split
    · exact h.setTask _ _ r
    · exact r
  | init =>
    unfold bootInit
    have own := h.setFromModule false r
    dsimp only
    rw [h.now own]
    exact h.setTask _ _
      (h.write (g := fun f => { f with tBoot := Timer.arm s.now }) (fun _ _ _ => rfl) own)
  | run =>
    have boot : s'.fsm.tBoot = s.fsm.tBoot := by rw [h.fsm r]
    unfold bootRun
    dsimp only
    rw [h.cfg r, h.now r, boot, h.link r]
    split
    · exact h.setTask _ _ (h.setNextMode _ r)
    · exact r
  | pause => exact r
  | stop =>
    exact h.stopCommon (h.write (g := fun f => { f with tBoot := f.tBoot.disarm }) (fun _ _ _ => rfl)
      (h.bootFlags r))

theorem btFunction (h : Lockstep R) (ev : Byte) (r : R s s') : R (btFunction ev s) (btFunction ev s') := by
  unfold Machine.btFunction
  rw [h.tasks r]
  cases s.fsm.tasks.bluetoothA2DP with
  | idle => exact h.setTask _ _ r
  | init =>
    unfold btInit
    rw [h.fromModule r]
    refine h.setTask _ _ ?_
    split
    · exact h.setFromModule false r
    · exact h.sendThenBlock Cfg.fcBt r
  | run => exact h.runEvents ev r
  | pause => exact r
  | stop => exact h.stopCommon r

theorem grace (h : Lockstep R) (r : R s s') : R (grace s) (grace s') := by
  have timer : s'.fsm.tGrace = s.fsm.tGrace := by rw [h.fsm r]
  unfold Machine.grace
  rw [h.cfg r, h.link r, timer, h.now r]
  split
  · exact h.disarmGrace r
  · split
    · split
      · exact h.requestMode _ (h.setFromModule false (h.disarmGrace r))
      · exact r
    · exact h.write (g := fun f => { f with tGrace := Timer.arm s.now }) (fun _ _ _ => rfl) r

theorem spotifyFunction (h : Lockstep R) (ev : Byte) (r : R s s') :
    R (spotifyFunction ev s) (spotifyFunction ev s') := by
  unfold Machine.spotifyFunction
  rw [h.tasks r]
  cases s.fsm.tasks.spotifyConnect with
  | idle => exact h.setTask _ _ r
  | init =>
    unfold spotifyInit
    rw [h.fromModule r]
    refine h.setTask _ _ (h.disarmGrace ?_)
    split
    · exact h.setFromModule false r
    · exact h.sendThenBlock Cfg.fcSpotify r
  | run =>
    have graced := h.grace r
    unfold spotifyRun
    dsimp only
    rw [h.tasks graced]
    split
    · exact h.runEvents ev graced
    · exact graced
  | pause => exact r
  | stop => exact h.stopCommon (h.disarmGrace r)

theorem switchWhenOffline (h : Lockstep R) (r : R s s') :
    R (switchWhenOffline s) (switchWhenOffline s') := by
  have latch : s'.fsm.netcfgDiscLatch = s.fsm.netcfgDiscLatch := by rw [h.fsm r]
  unfold Machine.switchWhenOffline
  dsimp only
  rw [h.cfg r, h.link r, latch]
  refine h.setDiscLatch _ ?_
  split
  · exact h.sendThenBlock Cfg.fcSwitchSpotify r
  · exact r

theorem netcfgFunction (h : Lockstep R) (ev : Byte) (r : R s s') :
    R (netcfgFunction ev s) (netcfgFunction ev s') := by
  unfold Machine.netcfgFunction
  rw [h.tasks r]
  cases s.fsm.tasks.networkConfig with
  | idle => exact h.setTask _ _ r
  | init => exact h.setTask _ _ (h.setDiscLatch false (h.setFromModule false r))
  | run =>
    unfold netcfgRun
    dsimp only
    rw [h.cfg r, h.link r]
    split
    · exact h.setTask _ _ r
    · exact h.runEvents ev (h.switchWhenOffline r)
  | pause =>
    unfold netcfgPause
    dsimp only
    rw [h.cfg r, h.link r]
    split
    · exact r
    · exact h.setTask _ _ r
  | stop => exact h.stopCommon (h.setDiscLatch false r)

theorem factoryFunction (h : Lockstep R) (ev : Byte) (r : R s s') :
    R (factoryFunction ev s) (factoryFunction ev s') := by
  unfold Machine.factoryFunction
  rw [h.tasks r]
  cases s.fsm.tasks.factoryReset with
  | idle => exact h.setTask _ _ r
  | init => exact h.setTask _ _ (h.issueFactoryReset (h.setFromModule false r))
  | run =>
    unfold factoryRun
    dsimp only
    rw [h.cfg r, h.link r]
    split
    · exact h.setTask _ _ (h.setNextMode _ r)
    · split
      · exact h.toggle r
      · exact r
  | pause => exact r
  | stop =>
    unfold factoryStop
    rw [h.cfg r]
    have volume := h.write (g := fun f => { f with volume := s.cfg.defaultVolume }) (fun _ _ _ => rfl) r
    exact h.stopCommon (h.write (g := fun f => { f with factoryInProgress := false }) (fun _ _ _ => rfl)
      (h.issueUnmute volume))

theorem modeFunction (h : Lockstep R) (m : Mode) (ev : Byte) (r : R s s') :
    R (modeFunction m ev s) (modeFunction m ev s') := by
  cases m with
  | idle => exact r
  | standby => exact h.standbyFunction ev r
  | booting => exact h.bootingFunction r
  | bluetoothA2DP => exact h.btFunction ev r
  | spotifyConnect => exact h.spotifyFunction ev r
  | factoryReset => exact h.factoryFunction ev r
  | networkConfig => exact h.netcfgFunction ev r

/-! ### The tail's event actions in lockstep -/

theorem factoryTrigger (h : Lockstep R) (r : R s s') : R (factoryTrigger s) (factoryTrigger s') := by
  have flag : s'.fsm.factoryInProgress = s.fsm.factoryInProgress := by rw [h.fsm r]
  unfold Machine.factoryTrigger
  rw [flag, h.tasks r, h.mode r]
  split
  · exact r
  · split
    · exact h.requestMode _ (h.setFromModule false
        (h.write (g := fun f => { f with factoryInProgress := true }) (fun _ _ _ => rfl) r))
    · exact r

theorem tailEvents (h : Lockstep R) (ev : Byte) (r : R s s') :
    R (tailEvents ev s) (tailEvents ev s') := by
  unfold Machine.tailEvents
  split
  · exact h.sendThenEcho Cfg.fcVolUp r
  · split
    · exact h.sendThenEcho Cfg.fcVolDown r
    · split
      · exact h.factoryTrigger r
      · exact r

theorem ackModuleVolume (h : Lockstep R) (ev : Byte) (r : R s s') :
    R (ackModuleVolume ev s) (ackModuleVolume ev s') := by
  unfold Machine.ackModuleVolume
  rw [h.link r]
  split
  · exact h.setLink rfl r
  · exact r

end

end Lockstep

/-! ### The dispatcher up to its counter -/

/-- What the dispatcher does before its counter: the mode function and the tail's event actions, by the
latched mode and event (42_mode_fsm.md R212, R213, R253 to R256). -/
def beforeCount (m0 : Mode) (ev : Byte) (s : State) : State :=
  let t := modeFunction m0 ev s
  ackModuleVolume ev (if m0 = .standby then t else tailEvents ev t)

/-- The dispatcher, its counter and its slot at the end. -/
theorem dispatch_eq (s : State) :
    dispatch s = clearEvent (diagCount (beforeCount s.fsm.mode s.fsm.event s)) := by
  rw [dispatch, tail_eq]
  rfl

theorem Lockstep.beforeCount {R : State → State → Prop} (h : Lockstep R) (m0 : Mode) (ev : Byte)
    {s s' : State} (r : R s s') : R (beforeCount m0 ev s) (beforeCount m0 ev s') := by
  unfold Machine.beforeCount
  dsimp only
  refine h.ackModuleVolume ev ?_
  split
  · exact h.modeFunction m0 ev r
  · exact h.tailEvents ev (h.modeFunction m0 ev r)

/-! ### Properties of one state -/

/-- Each single write of the dispatcher before its counter keeps `P`. -/
structure DispatchClosed (P : State → Prop) : Prop where
  point : ∀ {s}, P s → P (interruptPoint s)
  offer : ∀ {s} bs, P s → P (afterOffer s bs)
  bootFlags : ∀ {s}, P s → P (setBootReady s)
  write : ∀ {s v}, v.diagCounter = s.fsm.diagCounter → P s → P (s.withFsm v)
  setLink : ∀ {s v}, v.tReq = s.link.tReq → P s → P (s.withLink v)

/-- A property of one state is a run in lockstep with itself. -/
theorem DispatchClosed.lockstep {P : State → Prop} (h : DispatchClosed P) :
    Lockstep fun s s' => s' = s ∧ P s where
  cfg := fun ⟨e, _⟩ => e ▸ rfl
  now := fun ⟨e, _⟩ => e ▸ rfl
  link := fun ⟨e, _⟩ => e ▸ rfl
  fsm := fun ⟨e, _⟩ => e ▸ rfl
  point := fun ⟨e, p⟩ => ⟨e ▸ rfl, h.point p⟩
  offer := fun bs ⟨e, p⟩ => ⟨e ▸ rfl, h.offer bs p⟩
  bootFlags := fun ⟨e, p⟩ => ⟨e ▸ rfl, h.bootFlags p⟩
  write := fun {s _ _} blind ⟨e, p⟩ => ⟨e ▸ rfl,
    h.write (blind.diagCounter s.fsm) p⟩
  setLink := fun hv ⟨e, p⟩ => ⟨e ▸ rfl, h.setLink hv p⟩

theorem DispatchClosed.beforeCount {P : State → Prop} (h : DispatchClosed P) (m0 : Mode) (ev : Byte)
    {s : State} (hs : P s) : P (beforeCount m0 ev s) :=
  (h.lockstep.beforeCount m0 ev ⟨rfl, hs⟩).2

end Sys2Proof.Machine
end

section
/-! PROOF. Over a whole POLL: a quiet link stays quiet, so that a requested mode's entry can be followed POLL
by POLL (42_mode_fsm.md R217, R262), Booting's end (R229, R230), the counter and the frame of a POLL (R257;
41_register_bus.md R161, 60_exceptions.md R286). -/

namespace Sys2Proof.Machine

/-! ### A quiet link stays quiet -/

/-- Whether the link is quiet is read off the configuration, the tick, the FIFO, the request's timer and
the inputs in store. -/
theorem State.linkQuiet.of_eq {s t : State} (h : s.linkQuiet) (input : t.input = s.input)
    (fifo : t.sync.rxFifo = s.sync.rxFifo) (cfg : t.cfg = s.cfg) (now : t.now = s.now)
    (tReq : t.link.tReq = s.link.tReq) : t.linkQuiet :=
  ⟨State.quietPoints_of_input input h.points, fifo.trans h.fifo, by rw [cfg, now, tReq]; exact h.request⟩

theorem linkQuiet_dispatchClosed : DispatchClosed State.linkQuiet where
  point := fun h => by rwa [interruptPoint_quiet h.points]
  offer := fun _ h => h.of_eq rfl rfl rfl rfl rfl
  bootFlags := fun h => by
    rw [setBootReady_quiet h.points]
    exact h.of_eq rfl rfl rfl rfl rfl
  write := fun _ h => h.of_eq rfl rfl rfl rfl rfl
  setLink := fun hv h => h.of_eq rfl rfl rfl rfl hv

theorem dispatch_linkQuiet {s : State} (h : s.linkQuiet) : (dispatch s).linkQuiet := by
  have before := linkQuiet_dispatchClosed.beforeCount s.fsm.mode s.fsm.event h
  rw [dispatch_eq, diagCount_quiet before.points, clearEvent, interruptPoint_quiet (by exact before.points)]
  exact before.of_eq rfl rfl rfl rfl rfl

theorem exec_poll_quiet {s : State} (h : s.linkQuiet) : exec .poll s = .next (dispatch s) :=
  congrArg Host.Outcome.next (pollOnce_quiet h)

/-- With no event latched the dispatcher is the mode function and the end of the tick. -/
theorem dispatch_noEvent {s : State} (h : s.quietPoints) (hev : s.fsm.event = 0) :
    dispatch s = tickEnd 0 (modeFunction s.fsm.mode 0 s) := by
  rw [dispatch, hev]
  exact tail_inert _ _ (modeFunction_quietPoints _ _ h) ⟨by decide, by decide, by decide⟩

/-! ### A requested mode's entry -/

/-- The exit action enters the mode that follows, every sub-state of the mode left Idle. -/
theorem exitAction_core {s : State} (hm : s.fsm.mode ≠ .idle) :
    (exitAction s).fsm.mode = (if s.fsm.mode = .standby then
        (if inWifiSetup s.cfg s.link.cur then .networkConfig else s.fsm.prevMode)
      else s.fsm.nextMode) ∧
    (exitAction s).fsm.tasks = s.fsm.tasks.set s.fsm.mode .idle := by
  unfold exitAction
  cases m : s.fsm.mode
  case idle => exact absurd m hm
  all_goals exact ⟨rfl, rfl⟩

/-- The entry action stays in its mode and reaches Run. -/
theorem entryAction_core {s : State} (hm : s.fsm.mode ≠ .idle) :
    (entryAction s).fsm.mode = s.fsm.mode ∧
    (entryAction s).fsm.tasks = s.fsm.tasks.set s.fsm.mode .run := by
  unfold entryAction
  cases m : s.fsm.mode
  case idle => exact absurd m hm
  case bluetoothA2DP | spotifyConnect =>
    dsimp only
    split
    · exact ⟨m, rfl⟩
    · exact ⟨m, rfl⟩
  all_goals exact ⟨m, rfl⟩

/-- The first POLL leaves the old mode: the mode that follows is entered, its sub-state Idle. -/
theorem dispatch_leaves {s : State} (hi : Inv s) (hq : s.linkQuiet)
    (ht : s.fsm.tasks.get s.fsm.mode = .stop) :
    (dispatch s).fsm.mode = (if s.fsm.mode = .standby then
        (if inWifiSetup s.cfg s.link.cur then .networkConfig else s.fsm.prevMode)
      else s.fsm.nextMode) ∧
    ∀ m, (dispatch s).fsm.tasks.get m = .idle := by
  have hm : s.fsm.mode ≠ .idle := fun m => by
    rw [m] at ht
    cases hi.idleInert.symm.trans ht
  obtain ⟨mode, tasks⟩ := exitAction_core hm
  have idle : ∀ m, (exitAction s).fsm.tasks.get m = .idle := fun m => by
    rw [tasks]
    exact hi.modeOk.leave_idle m
  have core : (dispatch s).core = (exitAction s).core := by
    rw [dispatch, clearEvent_core, modeFunction_stop _ hq.points ht hm]
    exact tail_core_of_inactive _ (.inr (by rw [idle]; rfl))
  obtain ⟨mode', -, -, tasks'⟩ := core_fields core
  exact ⟨mode'.trans mode, fun m => by rw [tasks', idle]⟩

/-- The second POLL only moves the mode to Init. -/
theorem dispatch_enters {s : State} {m : Mode} (hq : s.quietPoints) (hev : s.fsm.event = 0)
    (hm : s.fsm.mode = m) (ht : s.fsm.tasks.get m = .idle) (notIdle : m ≠ .idle)
    (notBooting : m ≠ .booting) :
    dispatch s = tickEnd 0 { s with fsm := { s.fsm with tasks := s.fsm.tasks.set m .init } } := by
  subst hm
  rw [dispatch_noEvent hq hev, modeFunction_idle 0 ht, if_neg (by simp [notIdle, notBooting])]

/-- Settles O46: each POLL by the sub-state the one before it left. -/
theorem requestedModeRunsAfterThreePolls : Obligations.RequestedModeRunsAfterThreePolls := by
  unfold Obligations.RequestedModeRunsAfterThreePolls
  intro s m hi hq ht hm notIdle notBooting
  obtain ⟨modeT, idleT⟩ := dispatch_leaves hi hq ht
  rw [← hm] at modeT
  have quietT := dispatch_linkQuiet hq
  have slotT : (dispatch s).fsm.event = 0 := rfl
  generalize left : dispatch s = t at modeT idleT quietT slotT
  have enters := dispatch_enters quietT.points slotT modeT (idleT m) notIdle notBooting
  have quietU := dispatch_linkQuiet quietT
  rw [enters] at quietU
  generalize entered : tickEnd 0 { t with fsm := { t.fsm with tasks := t.fsm.tasks.set m .init } } = u
    at enters quietU
  have modeU : u.fsm.mode = m := by rw [← entered]; exact modeT
  have initU : u.fsm.tasks.get m = .init := by rw [← entered]; exact Tasks.get_set_same _ _ _
  have slotU : u.fsm.event = 0 := by rw [← entered]; rfl
  have acts : dispatch u = tickEnd 0 (entryAction u) := by
    rw [dispatch_noEvent quietU.points slotU,
      modeFunction_init 0 quietU.points (by rw [modeU, initU]) (by rwa [modeU])]
  have quietV := dispatch_linkQuiet quietU
  obtain ⟨modeV, tasksV⟩ := entryAction_core (s := u) (by rwa [modeU])
  have runV : (entryAction u).fsm.tasks.get m = .run := by
    rw [tasksV, modeU, Tasks.get_set_same]
  rw [modeU] at modeV
  rw [acts] at quietV
  refine ⟨t, u, tickEnd 0 (entryAction u), left ▸ exec_poll_quiet hq, enters ▸ exec_poll_quiet quietT,
    acts ▸ exec_poll_quiet quietU, modeT, idleT m, modeU, initU, modeV, runV, entered.symm, rfl, ?_⟩
  have modeV' : (tickEnd 0 (entryAction u)).fsm.mode = m := modeV
  have handles := modeFunction_run 0 (s := tickEnd 0 (entryAction u)) (by rw [modeV']; exact runV)
    (by rwa [modeV'])
  rw [exec_poll_quiet quietV, dispatch_noEvent quietV.points rfl, handles]

/-! ### The end of Booting -/

/-- The tail touches a variable of a mode change on a factory-reset event alone (42_mode_fsm.md R255). -/
theorem tail_core_of_ne {ev : Byte} (m0 : Mode) (s : State) (h : ev ≠ evFactoryReset) :
    (tail m0 ev s).core = s.core := by
  rw [tail_eq, diagCount_core, ackModuleVolume_core]
  unfold tailEvents
  split
  · rfl
  · split
    · exact issueVolUp_core s
    · split
      · exact issueVolDown_core s
      · rfl

theorem bootRuleOf_mem (c : Cfg) (q : Quad) :
    bootRuleOf c q ∈ [.spotifyConnect, .standby, .networkConfig] := by
  unfold bootRuleOf
  cases bootTableOf c q _ <;> decide

/-- Settles O47: in Booting's Run a POLL's moves are those of its handler. -/
theorem bootingSelectsAStartupMode : Obligations.BootingSelectsAStartupMode := by
  unfold Obligations.BootingSelectsAStartupMode
  intro s hq hm ht hev
  have handler : modeFunction s.fsm.mode s.fsm.event s = bootRun s := by
    rw [hm]
    simp only [modeFunction, bootingFunction, ht]
  have core : (dispatch s).core = (bootRun s).core := by
    rw [dispatch, clearEvent_core, tail_core_of_ne _ _ hev, handler]
  obtain ⟨mode, next, -, tasks⟩ := core_fields core
  refine ⟨_, exec_poll_quiet hq, ?_, fun settling => ?_, fun settled => ?_⟩
  · rw [mode]
    unfold bootRun
    split
    · exact hm
    · exact hm
  · rw [tasks, bootRun, if_neg (Nat.not_le.mpr settling)]
    exact ht
  · rw [tasks, next, bootRun, if_pos settled]
    exact ⟨rfl, bootRuleOf_mem _ _⟩

/-! ### The counter and the frame of a POLL -/

theorem diagCount_diagCounter (s : State) : (diagCount s).fsm.diagCounter = s.fsm.diagCounter + 1 := by
  unfold diagCount
  dsimp only
  split
  · rw [(regWritePoll_safe _ _ _).fsm]
    rfl
  · rfl

theorem interruptPoint_diagCounter (s : State) :
    (interruptPoint s).fsm.diagCounter = s.fsm.diagCounter := by
  rw [(interruptPoint_safe s).fsm]

theorem beforeCount_diagCounter (m0 : Mode) (ev : Byte) (s : State) :
    (beforeCount m0 ev s).fsm.diagCounter = s.fsm.diagCounter := by
  refine DispatchClosed.beforeCount (P := fun t => t.fsm.diagCounter = s.fsm.diagCounter) ?_ m0 ev rfl
  refine ⟨fun {t} h => (interruptPoint_diagCounter t).trans h, fun _ h => h, fun {t} h => ?_,
    fun hv h => hv.trans h, fun _ h => h⟩
  rw [setBootReady, (regWrite_safe _ _ _).fsm]
  exact (interruptPoint_diagCounter t).trans h

/-- Whatever is run at its interrupt points, the dispatcher counts one up (42_mode_fsm.md R257). -/
theorem dispatch_diagCounter (s : State) : (dispatch s).fsm.diagCounter = s.fsm.diagCounter + 1 := by
  rw [dispatch_eq]
  calc (interruptPoint (diagCount (beforeCount s.fsm.mode s.fsm.event s))).fsm.diagCounter
      = (diagCount (beforeCount s.fsm.mode s.fsm.event s)).fsm.diagCounter :=
        interruptPoint_diagCounter _
    _ = (beforeCount s.fsm.mode s.fsm.event s).fsm.diagCounter + 1 := diagCount_diagCounter _
    _ = s.fsm.diagCounter + 1 := by rw [beforeCount_diagCounter]

/-- The registers a POLL writes: the mirrors, the boot flags and the counter's mirror
(41_register_bus.md R161). -/
def pollRegisters (c : Cfg) : List Nat :=
  [c.regWifiBt.val, c.regMode.val, c.regSpotify.val, c.regVolumeMute.val, c.regError.val,
    c.regBootFlags.val, c.regAuxDiag.val]

/-- What a POLL leaves alone where no stimulus is in store (60_exceptions.md R286). -/
structure PollFrame (s t : State) : Prop where
  cfg : t.cfg = s.cfg
  now : t.now = s.now
  bus : t.bus = s.bus
  indicator : t.indicator = s.indicator
  fault : t.faultRegfileOob = s.faultRegfileOob
  refused : t.refused = s.refused
  rdLog : t.io.rdLog = s.io.rdLog
  ackLog : t.io.ackLog = s.io.ackLog
  input : t.input = s.input
  memWf : s.mem.wf = true → t.mem.wf = true
  read : s.mem.wf = true → ∀ a, a ∉ pollRegisters s.cfg → t.mem.read a = s.mem.read a

section
variable {s t : State}

theorem PollFrame.refl (s : State) : PollFrame s s :=
  ⟨rfl, rfl, rfl, rfl, rfl, rfl, rfl, rfl, rfl, id, fun _ _ _ => rfl⟩

/-- A write of one of the POLL's registers. -/
theorem PollFrame.withMem (h : PollFrame s t) {i : Fin 12} (v : Byte)
    (hi : i.val ∈ pollRegisters t.cfg) : PollFrame s (t.withMem (t.mem.write i.val v)) where
  cfg := h.cfg
  now := h.now
  bus := h.bus
  indicator := h.indicator
  fault := h.fault
  refused := h.refused
  rdLog := h.rdLog
  ackLog := h.ackLog
  input := h.input
  memWf := fun wf => Memory.write_wf v i.isLt (h.memWf wf)
  read := fun wf a ha => by
    have other : i.val ≠ a := fun e => ha (by rwa [← e, ← h.cfg])
    rw [State.withMem_mem, Memory.read_write (h.memWf wf), if_neg other]
    exact h.read wf a ha

/-- A write of none of the groups a POLL leaves alone. -/
theorem PollFrame.of_eq (h : PollFrame s t) {u : State}
    (hu : u = { t with
      sync := u.sync, link := u.link, fsm := u.fsm, draws := u.draws, scripted := u.scripted
      io := { t.io with txLog := u.io.txLog, envTxDrop := u.io.envTxDrop } }) : PollFrame s u := by
  rw [hu]
  exact ⟨h.cfg, h.now, h.bus, h.indicator, h.fault, h.refused, h.rdLog, h.ackLog, h.input, h.memWf,
    h.read⟩

theorem PollFrame.point (hq : s.quietPoints) (h : PollFrame s t) : PollFrame s (interruptPoint t) := by
  rwa [interruptPoint_quiet (State.quietPoints_of_input h.input hq)]

theorem pollFrame_linkClosed (hq : s.quietPoints) : LinkClosed (PollFrame s) where
  point := fun h => h.point hq
  offer := fun _ h => h.of_eq rfl
  sync := fun _ h => h.of_eq rfl
  link := fun _ h => h.of_eq rfl
  mirror := fun v hi h => h.withMem v (by
    simp only [mirrorRegisters, List.mem_cons, List.not_mem_nil, or_false] at hi
    obtain rfl | rfl | rfl | rfl | rfl := hi <;> simp [pollRegisters])
  volume := fun _ h => h.of_eq rfl
  event := fun _ h => h.of_eq rfl

theorem pollFrame_dispatchClosed (hq : s.quietPoints) : DispatchClosed (PollFrame s) where
  point := fun h => h.point hq
  offer := fun _ h => h.of_eq rfl
  bootFlags := fun h => by
    rw [setBootReady_quiet (State.quietPoints_of_input h.input hq)]
    exact h.withMem _ (by simp [pollRegisters])
  write := fun _ h => h.of_eq rfl
  setLink := fun _ h => h.of_eq rfl

/-- Where no stimulus is in store, the dispatcher keeps the frame and mirrors its counter. -/
theorem PollFrame.dispatch (hq : s.quietPoints) (h : PollFrame s t) : PollFrame s (dispatch t) ∧
    (s.mem.wf = true → s.cfg.configDiagCounter = true →
      (dispatch t).mem.read s.cfg.regAuxDiag.val = t.fsm.diagCounter + 1) := by
  have before := (pollFrame_dispatchClosed hq).beforeCount t.fsm.mode t.fsm.event h
  have count := beforeCount_diagCounter t.fsm.mode t.fsm.event t
  have quiet := State.quietPoints_of_input before.input hq
  rw [dispatch_eq, diagCount_quiet quiet, clearEvent, interruptPoint_quiet (by exact quiet)]
  generalize beforeCount t.fsm.mode t.fsm.event t = u at before count quiet
  by_cases counted : u.cfg.configDiagCounter = true
  · rw [if_pos counted]
    refine ⟨PollFrame.of_eq (before.withMem (i := u.cfg.regAuxDiag) (u.fsm.diagCounter + 1)
      (by simp [pollRegisters])) rfl, fun wf _ => ?_⟩
    show (u.mem.write u.cfg.regAuxDiag.val (u.fsm.diagCounter + 1)).read s.cfg.regAuxDiag.val = _
    rw [Memory.read_write (before.memWf wf), before.cfg, if_pos rfl, count]
  · rw [if_neg counted]
    refine ⟨before.of_eq rfl, fun _ on => absurd ?_ counted⟩
    rwa [before.cfg]

end

end Sys2Proof.Machine
end

section
/-! PROOF. The event is latched where the dispatcher begins: a POST at one of its points has no effect
(42_mode_fsm.md R212, R214, 70_reset_and_hazards.md R312). -/

namespace Sys2Proof.Machine

/-! ### The bus agent does not see the mode machine -/

/-- The same state with other mode machine variables and other inputs in store. -/
def reseat (f : Fsm) (v : Input) (s : State) : State := { s with fsm := f, input := v }

section
variable (f : Fsm) (v : Input) (s : State)

theorem rawStore_reseat (i : Byte) : rawStore i (reseat f v s) = reseat f v (rawStore i s) := by
  have mode : (reseat f v s).cfg.rawStoreMode = s.cfg.rawStoreMode := rfl
  unfold rawStore
  rw [mode]
  cases s.cfg.rawStoreMode with
  | none => rfl
  | byte =>
    dsimp only
    split
    · next storage =>
      simp only [State.regWrite, storage, if_true]
      rfl
    · rfl

theorem routeAction_reseat (i : Byte) : routeAction i (reseat f v s) = reseat f v (routeAction i s) := by
  have key : ∀ k, routeKey k (reseat f v s) = reseat f v (routeKey k s) := fun k => by
    have keyOf' : keyOf (reseat f v s).cfg k = keyOf s.cfg k := rfl
    unfold routeKey
    rw [keyOf']
    cases keyOf s.cfg k with
    | none => rfl
    | some k => simp only [sendFrameBus_eq]; rfl
  have volume : ∀ w, volumeSet w (reseat f v s) = reseat f v (volumeSet w s) := fun w => by
    unfold volumeSet
    simp only [sendFrameBus_eq]
    split
    · rfl
    · rfl
  have aux : ∀ w, auxControl w (reseat f v s) = reseat f v (auxControl w s) := fun w => by
    unfold auxControl
    split
    · rfl
    · split
      · rfl
      · rfl
  have cfg : (reseat f v s).cfg = s.cfg := rfl
  unfold routeAction
  rw [key, volume, aux, cfg]
  split
  · rfl
  · split
    · rfl
    · split
      · rfl
      · rfl

theorem route_reseat : route (reseat f v s) = reseat f v (route s) := by
  have record : (reseat f v s).bus = s.bus := rfl
  unfold route
  rw [record]
  split
  · rfl
  · rw [rawStore_reseat, routeAction_reseat]

theorem partialRecord_reseat : partialRecord (reseat f v s) = reseat f v (partialRecord s) := by
  have policy : (reseat f v s).cfg.partialRecordPolicy = s.cfg.partialRecordPolicy := rfl
  unfold partialRecord
  dsimp only
  rw [policy]
  cases s.cfg.partialRecordPolicy with
  | drop => rfl
  | processRetained => exact route_reseat f v (s.withBus { s.bus with lastRxCount := s.bus.rxCount })

theorem busWrite_reseat (b : Byte) : busWrite b (reseat f v s) = reseat f v (busWrite b s) := by
  have bus : (reseat f v s).bus = s.bus := rfl
  have stored : storeRecByte b (reseat f v s) = reseat f v (storeRecByte b s) := rfl
  unfold busWrite
  dsimp only
  rw [stored, bus, show (reseat f v (storeRecByte b s)).bus = (storeRecByte b s).bus from rfl]
  split
  · split
    · rfl
    · exact congrArg busIdle (route_reseat f v ((storeRecByte b s).logAck false))
  · rfl

theorem busRead_reseat : busRead (reseat f v s) = reseat f v (busRead s) := by
  have bus : (reseat f v s).bus = s.bus := rfl
  have byte : ∀ i, (reseat f v s).regReadByte i = s.regReadByte i := fun _ => rfl
  have draw : ∀ i, (reseat f v s).afterRegRead i = reseat f v (s.afterRegRead i) := fun i => by
    unfold State.afterRegRead
    split
    · rfl
    · rfl
  unfold busRead
  rw [bus, byte, draw]
  split
  · rfl
  · rfl

theorem busStop_reseat (p : Bool) : busStop p (reseat f v s) = reseat f v (busStop p s) := by
  have bus : (reseat f v s).bus = s.bus := rfl
  unfold busStop
  rw [bus, partialRecord_reseat]
  split
  · rfl
  · rfl

theorem busAckFail_reseat : busAckFail (reseat f v s) = reseat f v (busAckFail s) := by
  have bus : (reseat f v s).bus = s.bus := rfl
  unfold busAckFail
  rw [bus, partialRecord_reseat]
  cases s.bus.state with
  | addrW => rfl
  | addrR => rfl
  | idle => rfl
  | errRecovery => rfl

end

/-! ### Every POST struck -/

/-- Every POST struck from the points still to come, and event `e` in the slot. -/
def strike (e : Byte) (s : State) : State := postEvent e (withoutPosts s)

theorem strike_eq_reseat (e : Byte) (s : State) :
    strike e s = reseat (strike e s).fsm (strike e s).input s := rfl

/-- An operation of the bus agent commutes with the striking. -/
theorem strike_of_bus {g : State → State} (hg : ∀ f v s, g (reseat f v s) = reseat f v (g s))
    (keeps : ∀ s, BusKeeps s (g s)) (e : Byte) (s : State) : g (strike e s) = strike e (g s) := by
  have fsm : (strike e (g s)).fsm = (strike e s).fsm := by
    show { (g s).fsm with event := e } = { s.fsm with event := e }
    rw [(keeps s).fsm]
  have input : (strike e (g s)).input = (strike e s).input := by
    show (withoutPosts (g s)).input = (withoutPosts s).input
    unfold withoutPosts
    rw [(keeps s).input]
  rw [strike_eq_reseat e s, hg, strike_eq_reseat e (g s), fsm, input]

theorem runIpStim_strike (e : Byte) {i : IpStim} (hi : i.isPost = false) (s : State) :
    runIpStim i (strike e s) = strike e (runIpStim i s) := by
  cases i with
  | post x => cases hi
  | tick | tick100 | scan | txdrop | baddrw | baddrr | berr => rfl
  | rxb b =>
    simp only [runIpStim, receiveByte]
    have room : (strike e s).sync.rxFifo.length < (strike e s).cfg.rxFifoDepth ↔
      s.sync.rxFifo.length < s.cfg.rxFifoDepth := .rfl
    simp only [room]
    split
    · rfl
    · rfl
  | bwr b =>
    exact strike_of_bus (fun f v s => busWrite_reseat f v s b) (fun s => (busWrite_safe b s).toBusKeeps) e s
  | brd => exact strike_of_bus busRead_reseat (fun s => (busRead_safe s).toBusKeeps) e s
  | bstop p =>
    exact strike_of_bus (fun f v s => busStop_reseat f v s p) (fun s => (busStop_safe p s).toBusKeeps) e s
  | baf => exact strike_of_bus busAckFail_reseat (fun s => (busAckFail_safe s).toBusKeeps) e s

theorem runIpStims_strike (e : Byte) (is : List IpStim) (s : State) :
    runIpStims (is.filter (fun i => !i.isPost)) (strike e s) = strike e (runIpStims is s) := by
  induction is generalizing s with
  | nil => rfl
  | cons i is ih =>
    cases hi : i.isPost
    · rw [List.filter_cons_of_pos (by simp [hi])]
      show runIpStims _ (runIpStim i (strike e s)) = _
      rw [runIpStim_strike e hi, ih]
      rfl
    · obtain ⟨x, rfl⟩ : ∃ x, i = .post x := by
        cases i <;> cases hi
        exact ⟨_, rfl⟩
      rw [List.filter_cons_of_neg (by simp [hi])]
      exact ih (postEvent x s)

/-- A POST at an interrupt point writes the slot alone. -/
theorem interruptPoint_strike (e : Byte) (s : State) :
    interruptPoint (strike e s) = strike e (interruptPoint s) := by
  have sched : (strike e s).input.ipSched =
      s.input.ipSched.map (fun is => is.filter (fun i => !i.isPost)) := rfl
  unfold interruptPoint
  rw [sched]
  cases h : s.input.ipSched with
  | nil => rfl
  | cons is rest => exact runIpStims_strike e is (s.withInput { s.input with ipSched := rest })

/-! ### The dispatcher with every POST struck -/

theorem setBootReady_strike (e : Byte) (s : State) :
    setBootReady (strike e s) = strike e (setBootReady s) := by
  unfold setBootReady
  rw [interruptPoint_strike]
  dsimp only
  rw [State.regWrite_storage, State.regWrite_storage]
  rfl

/-- A state and itself with every POST struck run in lockstep. -/
theorem strike_lockstep (e : Byte) : Lockstep fun s s' => s' = strike e s where
  cfg := fun r => by rw [r]; rfl
  now := fun r => by rw [r]; rfl
  link := fun r => by rw [r]; rfl
  fsm := fun r => by rw [r]; rfl
  point := fun r => by rw [r, interruptPoint_strike]
  offer := fun _ r => by rw [r]; rfl
  bootFlags := fun r => by rw [r, setBootReady_strike]
  write := fun {s _ _} blind r => by
    rw [r]
    exact congrArg (withoutPosts s).withFsm (blind.event s.fsm e)
  setLink := fun _ r => by rw [r]; rfl

theorem diagCount_strike (e : Byte) (s : State) : diagCount (strike e s) = strike e (diagCount s) := by
  have counted : (strike e s).withFsm
      { (strike e s).fsm with diagCounter := (strike e s).fsm.diagCounter + 1 } =
      strike e (s.withFsm { s.fsm with diagCounter := s.fsm.diagCounter + 1 }) := rfl
  unfold diagCount
  dsimp only
  rw [counted]
  generalize s.withFsm { s.fsm with diagCounter := s.fsm.diagCounter + 1 } = t
  have on : (strike e t).cfg.configDiagCounter = t.cfg.configDiagCounter := rfl
  rw [on]
  split
  · rw [regWritePoll_eq, regWritePoll_eq, interruptPoint_strike]
    rfl
  · rfl

theorem clearEvent_strike (e : Byte) (s : State) :
    clearEvent (strike e s) = withoutPosts (clearEvent s) := by
  unfold clearEvent
  rw [interruptPoint_strike]
  rfl

/-- With every POST struck from its points the dispatcher ends in the same state (42_mode_fsm.md R212,
R214, 70_reset_and_hazards.md R312). -/
theorem dispatch_withoutPosts (s : State) : dispatch (withoutPosts s) = withoutPosts (dispatch s) := by
  have struck : beforeCount s.fsm.mode s.fsm.event (withoutPosts s) =
      strike s.fsm.event (beforeCount s.fsm.mode s.fsm.event s) :=
    (strike_lockstep s.fsm.event).beforeCount _ _ rfl
  rw [dispatch_eq, dispatch_eq s]
  calc clearEvent (diagCount (beforeCount s.fsm.mode s.fsm.event (withoutPosts s)))
      = clearEvent (strike s.fsm.event (diagCount (beforeCount s.fsm.mode s.fsm.event s))) := by
        rw [struck, diagCount_strike]
    _ = _ := clearEvent_strike _ _

/-- Settles O44. -/
theorem pollClearsCountsAndFrames : Obligations.PollClearsCountsAndFrames := by
  unfold Obligations.PollClearsCountsAndFrames
  intro s
  have counter : (interruptPoint (linkStep s)).fsm.diagCounter = s.fsm.diagCounter :=
    (interruptPoint_diagCounter _).trans (linkStep_diagCounter s)
  refine ⟨_, rfl, rfl, ?_, ⟨_, rfl, rfl, dispatch_withoutPosts _⟩, fun hq => ?_⟩
  · exact (dispatch_diagCounter _).trans (by rw [counter])
  · have before := ((pollFrame_linkClosed hq).linkStep (.refl s)).point hq
    obtain ⟨frame, mirrored⟩ := before.dispatch hq
    rw [counter] at mirrored
    exact ⟨frame.now, frame.bus, frame.indicator, frame.fault, frame.refused, frame.rdLog, frame.ackLog,
      frame.input, fun wf => ⟨mirrored wf, frame.read wf⟩⟩

end Sys2Proof.Machine
end

section
/-! PROOF. What an instruction other than POLL and RESET leaves of the mode machine, the snapshots and the
synchronizer (42_mode_fsm.md R210, 40_serial_link.md R137), and the two inputs POST and SCAN write
(42_mode_fsm.md R211, R258, R259). -/

namespace Sys2Proof.Machine

/-- What every instruction but POLL and RESET leaves alone: the snapshots, of the synchronizer all but the
FIFO, of the mode machine all but its two inputs and the blocking timer. -/
structure MachineKept (s t : State) : Prop where
  cur : t.link.cur = s.link.cur
  prev : t.link.prev = s.link.prev
  volInFlight : t.link.volInFlight = s.link.volInFlight
  sync : t.sync = { s.sync with rxFifo := t.sync.rxFifo }
  fsm : t.fsm = { s.fsm with
    event := t.fsm.event, scanInProgress := t.fsm.scanInProgress, tBlock := t.fsm.tBlock }

theorem MachineKept.trans {s t u : State} (h : MachineKept s t) (k : MachineKept t u) :
    MachineKept s u := by
  refine ⟨k.cur.trans h.cur, k.prev.trans h.prev, k.volInFlight.trans h.volInFlight, ?_, ?_⟩
  · rw [k.sync, h.sync]
  · rw [k.fsm, h.fsm]

/-- What an interrupt point leaves alone. -/
theorem IpSafe.machineKept {s t : State} (h : IpSafe s t) : MachineKept s t :=
  ⟨by rw [h.link], by rw [h.link], by rw [h.link], h.sync, by rw [h.fsm]⟩

theorem armBlock_machineKept (s : State) : MachineKept s (armBlock s) := ⟨rfl, rfl, rfl, rfl, rfl⟩

theorem armEcho_machineKept (s : State) : MachineKept s (armEcho s) := ⟨rfl, rfl, rfl, rfl, rfl⟩

theorem setReady_machineKept (v : Bool) (s : State) :
    MachineKept s (s.withLink { s.link with ready := v }) := ⟨rfl, rfl, rfl, rfl, rfl⟩

theorem sendFramePoll_machineKept (p : CmdPair) (s : State) : MachineKept s (sendFramePoll p s) :=
  (sendFramePoll_safe p s).machineKept

/-- A mode command: its frame, and the blocking timer (42_mode_fsm.md R226). -/
theorem sendThenBlock_machineKept (p : CmdPair) (s : State) :
    MachineKept s (armBlock (sendFramePoll p s)) :=
  (sendFramePoll_machineKept p s).trans (armBlock_machineKept _)

/-- A volume key: its frame, and the echo window (42_mode_fsm.md R254). -/
theorem sendThenEcho_machineKept (p : CmdPair) (s : State) :
    MachineKept s (armEcho (sendFramePoll p s)) :=
  (sendFramePoll_machineKept p s).trans (armEcho_machineKept _)

theorem issueFactoryReset_machineKept (s : State) : MachineKept s (issueFactoryReset s) :=
  (sendFramePoll_machineKept s.cfg.fcFactoryReset s).trans (setReady_machineKept false _)

theorem issueStatusReq_machineKept (s : State) : MachineKept s (issueStatusReq s) := by
  have armed : MachineKept s (s.withLink { s.link with tReq := Timer.arm s.now }) :=
    ⟨rfl, rfl, rfl, rfl, rfl⟩
  exact armed.trans (sendFramePoll_machineKept _ _)

/-- Every instruction but POLL and RESET keeps the machine: a stimulus as an interrupt point does, a command
row with the timer its rule arms. -/
theorem exec_machineKept (i : Instr) (s : State) (notPoll : i ≠ .poll) (notReset : i ≠ .reset) :
    ∃ t, exec i s = .next t ∧ MachineKept s t := by
  cases i with
  | poll => exact absurd rfl notPoll
  | reset => exact absurd rfl notReset
  | tick | tick100 => exact ⟨_, rfl, (advance_safe _ s).machineKept⟩
  | rxb b => exact ⟨_, rfl, (receiveByte_safe b s).machineKept⟩
  | post | postNone | postVolUp | postVolDown | postModeToggle | postSetModeFromModule | postPower
  | postFactoryReset | postModuleVolumeSet | postOther =>
    exact ⟨_, rfl, (postEvent_safe _ s).machineKept⟩
  | scan b => exact ⟨_, rfl, (setScan_safe b s).machineKept⟩
  | txdrop n => exact ⟨_, rfl, (runIpStim_safe (.txdrop n) s).machineKept⟩
  | baddrw => exact ⟨_, rfl, (runIpStim_safe .baddrw s).machineKept⟩
  | baddrr => exact ⟨_, rfl, (runIpStim_safe .baddrr s).machineKept⟩
  | bwr b => exact ⟨_, rfl, (runIpStim_safe (.bwr b) s).machineKept⟩
  | brd => exact ⟨_, rfl, (runIpStim_safe .brd s).machineKept⟩
  | bstop p => exact ⟨_, rfl, (runIpStim_safe (.bstop p) s).machineKept⟩
  | baf => exact ⟨_, rfl, (runIpStim_safe .baf s).machineKept⟩
  | berr => exact ⟨_, rfl, (runIpStim_safe .berr s).machineKept⟩
  | illegal => exact ⟨_, rfl, rfl, rfl, rfl, rfl, rfl⟩
  | rxseq | rxstatus | statusFrame => exact ⟨_, rfl, (receiveBytes_safe _ s).machineKept⟩
  | bsetidx i =>
    exact ⟨_, rfl, ((runIpStim_safe .baddrw s).trans (runIpStim_safe (.bwr i) _)).machineKept⟩
  | bread n => exact ⟨_, rfl, (bread_ipSafe n s).machineKept⟩
  | wait t => exact ⟨_, rfl, (wait_ipSafe t s).machineKept⟩
  | nop => exact ⟨_, rfl, (IpSafe.refl s).machineKept⟩
  | bwrite | writeRecord | recReject | recRawStore | recOob | recKeyCmd | recAuxCtrl | recVolumeSet
  | keyMute | keyUnmute | keySpotifyMode | keyBtMode | keyVolUp | keyVolDown | keyPlayPause
  | keyNext | keyPrev | keyResetNetwork | keyFactoryReset =>
    exact ⟨_, rfl, (busRecord_ipSafe _ _ _ s).machineKept⟩
  | cmdFrame | fcUnmute => exact ⟨_, rfl, sendFramePoll_machineKept _ s⟩
  | mcStatusReq => exact ⟨_, rfl, issueStatusReq_machineKept s⟩
  | mcSetVolume => exact ⟨_, rfl, (volumeSet_ipSafe _ s).machineKept⟩
  | fcSpotify | fcSwitchSpotify | fcBt | fcStandby => exact ⟨_, rfl, sendThenBlock_machineKept _ s⟩
  | fcVolUp | fcVolDown => exact ⟨_, rfl, sendThenEcho_machineKept _ s⟩
  | fcFactoryReset => exact ⟨_, rfl, issueFactoryReset_machineKept s⟩

/-- Settles O49. -/
theorem onlyPollMovesTheModeMachine : Obligations.OnlyPollMovesTheModeMachine := by
  unfold Obligations.OnlyPollMovesTheModeMachine
  intro i s notPoll notReset
  obtain ⟨t, ht, kept⟩ := exec_machineKept i s notPoll notReset
  exact ⟨t, ht, kept.cur, kept.prev, kept.volInFlight, kept.sync, kept.fsm⟩

/-- Settles O4: each row is one write of the slot or of the scan flag. -/
theorem postAndScanSetTheirInputs : Obligations.PostAndScanSetTheirInputs := by
  unfold Obligations.PostAndScanSetTheirInputs
  exact fun s => ⟨fun _ => rfl, rfl, rfl, rfl, rfl, rfl, rfl, rfl, rfl, fun _ => rfl, fun _ => rfl⟩

end Sys2Proof.Machine
end

section
/-! PROOF. What the bus agent does at the interrupt points of a POLL does not steer the poll agent
(60_exceptions.md R286): two POLLs in lockstep, the link step included, whose schedules agree in what the
environment runs. And every instruction completes (60_exceptions.md R270, 70_reset_and_hazards.md R331). -/

namespace Sys2Proof.Machine

/-! ### States alike to the poll agent -/

/-- The stimuli the poll agent can see the effect of, point by point. -/
def State.environmentSched (s : State) : List (List IpStim) :=
  s.input.ipSched.map (fun is => is.filter IpStim.environment)

/-- Two states the poll agent cannot tell apart, now or at the points still to come. -/
structure PollAlike (s s' : State) : Prop where
  cfg : s'.cfg = s.cfg
  now : s'.now = s.now
  sync : s'.sync = s.sync
  link : s'.link = s.link
  fsm : s'.fsm = s.fsm
  sched : s'.environmentSched = s.environmentSched

theorem PollAlike.refl (s : State) : PollAlike s s := ⟨rfl, rfl, rfl, rfl, rfl, rfl⟩

/-- What the bus agent keeps is all the poll agent sees. -/
theorem BusKeeps.pollAlike {s t : State} (h : BusKeeps s t) : PollAlike s t :=
  ⟨h.cfg, h.now, h.sync, h.link, h.fsm, by unfold State.environmentSched; rw [h.input]⟩

theorem regWrite_pollAlike (s : State) (i : Nat) (v : Byte) : PollAlike s (s.regWrite i v) :=
  (BusKeeps.regWrite s i v).pollAlike

namespace PollAlike

section
variable {s s' t t' : State}

theorem symm (r : PollAlike s s') : PollAlike s' s :=
  ⟨r.cfg.symm, r.now.symm, r.sync.symm, r.link.symm, r.fsm.symm, r.sched.symm⟩

theorem trans (r : PollAlike s t) (q : PollAlike t t') : PollAlike s t' :=
  ⟨q.cfg.trans r.cfg, q.now.trans r.now, q.sync.trans r.sync, q.link.trans r.link,
    q.fsm.trans r.fsm, q.sched.trans r.sched⟩

/-- Moves on both sides that the poll agent does not see. -/
theorem moves (r : PollAlike s s') (h : PollAlike s t) (h' : PollAlike s' t') : PollAlike t t' :=
  (h.symm.trans r).trans h'

theorem withNow (v : Nat) (r : PollAlike s s') : PollAlike (s.withNow v) (s'.withNow v) :=
  ⟨r.cfg, rfl, r.sync, r.link, r.fsm, r.sched⟩

theorem withSync (v : Sync) (r : PollAlike s s') : PollAlike (s.withSync v) (s'.withSync v) :=
  ⟨r.cfg, r.now, rfl, r.link, r.fsm, r.sched⟩

theorem withLink (v : Link) (r : PollAlike s s') : PollAlike (s.withLink v) (s'.withLink v) :=
  ⟨r.cfg, r.now, r.sync, rfl, r.fsm, r.sched⟩

theorem withFsm (v : Fsm) (r : PollAlike s s') : PollAlike (s.withFsm v) (s'.withFsm v) :=
  ⟨r.cfg, r.now, r.sync, r.link, rfl, r.sched⟩

/-- The link's own variables are rewritten alike. -/
theorem mapLink (g : Link → Link) (r : PollAlike s s') :
    PollAlike (s.withLink (g s.link)) (s'.withLink (g s'.link)) := by
  rw [r.link]
  exact r.withLink _

/-- The mode machine's own variables are rewritten alike. -/
theorem mapFsm (g : Fsm → Fsm) (r : PollAlike s s') :
    PollAlike (s.withFsm (g s.fsm)) (s'.withFsm (g s'.fsm)) := by
  rw [r.fsm]
  exact r.withFsm _

/-- The synchronizer's own variables are rewritten alike. -/
theorem mapSync (g : Sync → Sync) (r : PollAlike s s') :
    PollAlike (s.withSync (g s.sync)) (s'.withSync (g s'.sync)) := by
  rw [r.sync]
  exact r.withSync _

theorem postEvent (e : Byte) (r : PollAlike s s') : PollAlike (postEvent e s) (postEvent e s') :=
  r.mapFsm fun f => { f with event := e }

/-! ### An interrupt point in lockstep -/

theorem advance (ms : Nat) (r : PollAlike s s') : PollAlike (advance ms s) (advance ms s') := by
  unfold Machine.advance
  rw [r.cfg, r.now]
  exact r.withNow _

theorem receiveByte (b : Byte) (r : PollAlike s s') :
    PollAlike (receiveByte b s) (receiveByte b s') := by
  unfold Machine.receiveByte
  rw [r.sync, r.cfg]
  split
  · exact r.withSync _
  · exact r

theorem setScan (b : Bool) (r : PollAlike s s') : PollAlike (setScan b s) (setScan b s') :=
  r.mapFsm fun f => { f with scanInProgress := b }

/-- A stimulus the poll agent can see does the same to both states. -/
theorem runIpStim {i : IpStim} (hi : i.environment = true) (r : PollAlike s s') :
    PollAlike (runIpStim i s) (runIpStim i s') := by
  cases i with
  | tick | tick100 => exact r.advance _
  | rxb b => exact r.receiveByte b
  | post e => exact r.postEvent e
  | scan b => exact r.setScan b
  | txdrop | baddrw | baddrr | bwr | brd | bstop | baf | berr => cases hi

end

end PollAlike

/-- A stimulus of the bus agent, and TXDROP, keeps all the poll agent sees. -/
theorem runIpStim_pollAlike {i : IpStim} (hi : i.environment = false) (s : State) :
    PollAlike s (runIpStim i s) := by
  cases i with
  | tick | tick100 | rxb | post | scan => cases hi
  | txdrop => exact (BusKeeps.withIo s _).pollAlike
  | baddrw => exact (busAddrW_safe s).toBusKeeps.pollAlike
  | baddrr => exact (busAddrR_safe s).toBusKeeps.pollAlike
  | bwr b => exact (busWrite_safe b s).toBusKeeps.pollAlike
  | brd => exact (busRead_safe s).toBusKeeps.pollAlike
  | bstop p => exact (busStop_safe p s).toBusKeeps.pollAlike
  | baf => exact (busAckFail_safe s).toBusKeeps.pollAlike
  | berr => exact (busError_safe s).toBusKeeps.pollAlike

namespace PollAlike

section
variable {s s' : State}

/-- The stimuli at one point against the environment's among them. -/
theorem runIpStims_filter (is : List IpStim) (r : PollAlike s s') :
    PollAlike (runIpStims is s) (runIpStims (is.filter IpStim.environment) s') := by
  induction is generalizing s s' with
  | nil => exact r
  | cons i is ih =>
    cases hi : i.environment
    · rw [List.filter_cons_of_neg (by simp [hi])]
      exact ih ((runIpStim_pollAlike hi s).symm.trans r)
    · rw [List.filter_cons_of_pos hi]
      exact ih (r.runIpStim hi)

/-- Lists of stimuli that agree in what the environment runs. -/
theorem runIpStims {is is' : List IpStim}
    (same : is'.filter IpStim.environment = is.filter IpStim.environment) (r : PollAlike s s') :
    PollAlike (runIpStims is s) (runIpStims is' s') := by
  have right : PollAlike (Machine.runIpStims is' s')
      (Machine.runIpStims (is.filter IpStim.environment) s') := by
    rw [← same]
    exact (refl s').runIpStims_filter is'
  exact (r.runIpStims_filter is).trans right.symm

theorem interruptPoint (r : PollAlike s s') :
    PollAlike (interruptPoint s) (interruptPoint s') := by
  have sched := r.sched
  unfold State.environmentSched at sched
  unfold Machine.interruptPoint
  cases h : s.input.ipSched with
  | nil =>
    rw [h, List.map_nil, List.map_eq_nil_iff] at sched
    rw [sched]
    exact r
  | cons is rest =>
    cases h' : s'.input.ipSched with
    | nil => rw [h, h'] at sched; cases sched
    | cons is' rest' =>
      rw [h, h', List.map_cons, List.map_cons] at sched
      obtain ⟨first, others⟩ := List.cons.inj sched
      exact runIpStims first ⟨r.cfg, r.now, r.sync, r.link, r.fsm, others⟩

/-- What the two states write to the register file need not agree: the poll agent's rules only write it. -/
theorem regWritePoll (i i' : Fin 12) (v v' : Byte) (r : PollAlike s s') :
    PollAlike (regWritePoll i v s) (regWritePoll i' v' s') :=
  r.interruptPoint.moves (regWrite_pollAlike _ _ _) (regWrite_pollAlike _ _ _)

/-! ### The dispatcher in lockstep -/

/-- The dispatcher keeps two states alike: the boot flags' byte, the one it reads back from the register
file, goes nowhere else. -/
theorem lockstep : Lockstep PollAlike where
  cfg := PollAlike.cfg
  now := PollAlike.now
  link := PollAlike.link
  fsm := fun r => by rw [r.fsm]
  point := interruptPoint
  offer := fun bs r =>
    r.moves (BusKeeps.afterOffer _ bs).pollAlike (BusKeeps.afterOffer _ bs).pollAlike
  bootFlags := fun r => r.interruptPoint.moves (regWrite_pollAlike _ _ _) (regWrite_pollAlike _ _ _)
  write := fun {_ _ g} _ r => r.mapFsm g
  setLink := fun _ r => r.withLink _

theorem diagCount (r : PollAlike s s') : PollAlike (diagCount s) (diagCount s') := by
  have counted := r.mapFsm fun f => { f with diagCounter := f.diagCounter + 1 }
  unfold Machine.diagCount
  dsimp only
  rw [counted.cfg]
  split
  · exact counted.regWritePoll _ _ _ _
  · exact counted

theorem dispatch (r : PollAlike s s') : PollAlike (dispatch s) (dispatch s') := by
  rw [dispatch_eq, dispatch_eq, r.fsm]
  exact (lockstep.beforeCount _ _ r).diagCount.interruptPoint.postEvent evNone

/-! ### The synchronizer in lockstep -/

theorem frameComplete (r : PollAlike s s') : PollAlike (frameComplete s) (frameComplete s') := by
  unfold Machine.frameComplete
  rw [r.sync]
  exact (r.mapLink fun l => { l with
      cur := l.cur.copyFirst s.sync.buf s.sync.len.toNat
      ready := true }).mapSync fun y => { y with state := .awaitM1, count := 0 }

theorem syncFinish (r : PollAlike s s') : (syncFinish s').1 = (syncFinish s).1 ∧
    PollAlike (syncFinish s).2 (syncFinish s').2 := by
  unfold Machine.syncFinish
  rw [r.sync]
  split
  · exact ⟨rfl, r.frameComplete⟩
  · exact ⟨rfl, r⟩

theorem syncLength (b : Byte) (r : PollAlike s s') : (syncLength b s').1 = (syncLength b s).1 ∧
    PollAlike (syncLength b s).2 (syncLength b s').2 := by
  unfold Machine.syncLength
  rw [r.sync]
  split
  · exact ⟨rfl, r.withSync _⟩
  · exact (r.withSync _).syncFinish

theorem syncPayload (b : Byte) (r : PollAlike s s') : (syncPayload b s').1 = (syncPayload b s).1 ∧
    PollAlike (syncPayload b s).2 (syncPayload b s').2 := by
  unfold Machine.syncPayload
  rw [r.sync]
  exact (r.withSync _).syncFinish

theorem syncAwaitM1 (b : Byte) (r : PollAlike s s') :
    PollAlike (syncAwaitM1 b s) (syncAwaitM1 b s') := by
  unfold Machine.syncAwaitM1
  rw [r.sync]
  split
  · exact r.withSync _
  · exact r

theorem syncAwaitM2 (b : Byte) (r : PollAlike s s') :
    PollAlike (syncAwaitM2 b s) (syncAwaitM2 b s') := by
  unfold Machine.syncAwaitM2
  rw [r.sync]
  split
  · exact r.withSync _
  · split
    · exact r.withSync _
    · exact r

theorem syncAwaitM3 (b : Byte) (r : PollAlike s s') :
    PollAlike (syncAwaitM3 b s) (syncAwaitM3 b s') := by
  unfold Machine.syncAwaitM3
  rw [r.sync]
  split
  · exact r.withSync _
  · split
    · exact r.withSync _
    · exact r

theorem syncByte (b : Byte) (r : PollAlike s s') : (syncByte b s').1 = (syncByte b s).1 ∧
    PollAlike (syncByte b s).2 (syncByte b s').2 := by
  unfold Machine.syncByte
  rw [r.sync]
  cases s.sync.state with
  | awaitM1 => exact ⟨rfl, r.syncAwaitM1 b⟩
  | awaitM2 => exact ⟨rfl, r.syncAwaitM2 b⟩
  | awaitM3 => exact ⟨rfl, r.syncAwaitM3 b⟩
  | collect =>
    dsimp only
    split
    · exact r.syncLength b
    · exact r.syncPayload b

theorem setFifo (l : List Byte) (r : PollAlike s s') : PollAlike (setFifo l s) (setFifo l s') :=
  r.mapSync fun y => { y with rxFifo := l }

/-- The loop of SyncCall with two fuels, each enough for its own schedule: the bus agent's stimuli count
there, but no byte comes from them. -/
theorem syncLoop (tCall : Nat) {n n' : Nat} (hn : syncMeasure s < n) (hn' : syncMeasure s' < n')
    (r : PollAlike s s') : (syncLoop tCall n' s').1 = (syncLoop tCall n s).1 ∧
      PollAlike (syncLoop tCall n s).2 (syncLoop tCall n' s').2 := by
  induction n generalizing n' s s' with
  | zero => omega
  | succ n ih =>
    have point := r.interruptPoint
    rw [syncLoop_pass tCall _ s hn, syncLoop_pass tCall _ s' hn', point.sync, point.cfg, point.now]
    cases h : (Machine.interruptPoint s).sync.rxFifo with
    | nil => exact ⟨rfl, point⟩
    | cons b rest =>
      have fewer := syncMeasure_pass h
      have fewer' := syncMeasure_pass (s := s') (by rw [point.sync, h])
      obtain ⟨completed, taken⟩ := (point.setFifo rest).syncByte b
      dsimp only
      rw [completed]
      split
      · exact ⟨rfl, point⟩
      · split
        · exact ⟨rfl, taken⟩
        · exact ih (by omega) (by omega) taken

theorem syncCall (r : PollAlike s s') : (syncCall s').1 = (syncCall s).1 ∧
    PollAlike (syncCall s).2 (syncCall s').2 := by
  unfold Machine.syncCall
  rw [r.now]
  exact r.syncLoop s.now (Nat.lt_succ_self _) (Nat.lt_succ_self _)

/-! ### The companion link in lockstep -/

theorem statusRequestCheck (r : PollAlike s s') :
    PollAlike (statusRequestCheck s) (statusRequestCheck s') := by
  unfold Machine.statusRequestCheck issueStatusReq
  rw [r.cfg, r.now, r.link]
  split
  · exact lockstep.sendFramePoll _ (r.withLink _)
  · exact r

/-- The event of R133, where it is due. -/
theorem postModeEvent (r : PollAlike s s') :
    PollAlike (if modeEventDue s then Machine.postEvent evSetModeFromModule s else s)
      (if modeEventDue s' then Machine.postEvent evSetModeFromModule s' else s') := by
  have due : modeEventDue s' = modeEventDue s := by
    unfold modeEventDue
    rw [r.cfg, r.link]
  rw [due]
  split
  · exact r.postEvent _
  · exact r

theorem applyModuleVolume (vol : BitVec 7) (r : PollAlike s s') :
    PollAlike (applyModuleVolume vol s) (applyModuleVolume vol s') := by
  have applied := r.mapFsm fun f => { f with volume := vol }
  unfold Machine.applyModuleVolume
  dsimp only
  rw [applied.link]
  split
  · exact applied
  · exact (applied.postEvent _).mapLink fun l => { l with volInFlight := true }

/-- The volume of R134, outside the echo window. -/
theorem applyUnlessEcho (vol : BitVec 7) (r : PollAlike s s') :
    PollAlike
      (if running s.cfg s.now s.link.tEcho s.cfg.volEchoMs then s
        else Machine.applyModuleVolume vol s)
      (if running s'.cfg s'.now s'.link.tEcho s'.cfg.volEchoMs then s'
        else Machine.applyModuleVolume vol s') := by
  rw [r.cfg, r.now, r.link]
  split
  · exact r
  · exact r.applyModuleVolume vol

theorem react0 (r : PollAlike s s') : PollAlike (react0 s) (react0 s') :=
  (r.regWritePoll _ _ _ _).mapLink fun l => { l with prev := { l.prev with b0 := l.cur.b0 } }

theorem react1 (r : PollAlike s s') : PollAlike (react1 s) (react1 s') :=
  ((r.regWritePoll _ _ _ _).regWritePoll _ _ _ _).postModeEvent.mapLink
    fun l => { l with prev := { l.prev with b1 := l.cur.b1 } }

theorem react2 (r : PollAlike s s') : PollAlike (react2 s) (react2 s') := by
  unfold Machine.react2
  rw [r.link]
  exact ((r.regWritePoll _ _ _ _).applyUnlessEcho (volOf s.link.cur.b2)).mapLink
    fun l => { l with prev := { l.prev with b2 := l.cur.b2 } }

theorem react3 (r : PollAlike s s') : PollAlike (react3 s) (react3 s') :=
  (r.regWritePoll _ _ _ _).mapLink fun l => { l with prev := { l.prev with b3 := l.cur.b3 } }

theorem diff (r : PollAlike s s') : PollAlike (diff s) (diff s') := by
  unfold Machine.diff
  rw [r.link]
  split
  · exact r.react0
  · split
    · exact r.react1
    · split
      · exact r.react2
      · split
        · exact r.react3
        · exact r

theorem linkStep (r : PollAlike s s') : PollAlike (linkStep s) (linkStep s') := by
  obtain ⟨completed, called⟩ := r.statusRequestCheck.syncCall
  unfold Machine.linkStep
  dsimp only
  rw [completed]
  split
  · exact called.diff
  · exact called

/-- A POLL of two states it cannot tell apart ends in two such states. -/
theorem pollOnce (r : PollAlike s s') : PollAlike (pollOnce s) (pollOnce s') :=
  r.linkStep.interruptPoint.dispatch

end

end PollAlike

/-- Settles O52: a POLL keeps two states alike. -/
theorem busStimuliDoNotSteerThePoll : Obligations.BusStimuliDoNotSteerThePoll := by
  unfold Obligations.BusStimuliDoNotSteerThePoll
  intro s s' cfg now sync link fsm sched
  have alike : PollAlike s s' :=
    ⟨cfg.symm, now.symm, sync.symm, link.symm, fsm.symm, sched.symm⟩
  have polled := alike.pollOnce
  exact ⟨_, _, rfl, rfl, polled.now.symm, polled.sync.symm, polled.link.symm, polled.fsm.symm⟩

/-- Settles O48, from what one instruction can do. -/
theorem everyInstructionCompletes : Obligations.EveryInstructionCompletes := by
  unfold Obligations.EveryInstructionCompletes
  intro i s
  obtain ⟨t, ht, -⟩ := exec_effect i s
  exact ⟨t, ht⟩

end Sys2Proof.Machine
end

section
/-! PROOF. RESET and the state at power-on (70_reset_and_hazards.md R300, R301), and what a step does with
the oldest input, form by form (70_reset_and_hazards.md R331, 00_scope.md R1). -/

namespace Sys2Proof.Machine

/-! ### RESET -/

theorem exec_reset (s : State) : exec .reset s = .next (resetBlock s) := rfl

/-- Under a given configuration RESET leaves the power-on state of that configuration, but for the parts
that are not FSLINK's. -/
theorem resetBlock_of_cfg {s : State} {c : Cfg} (h : s.cfg = c) :
    resetBlock s = { State.resetOf c with
      io := s.io, input := s.input, draws := s.draws, scripted := s.scripted } := by
  rw [← h]
  rfl

/-- RESET leaves the power-on state as it is, so what holds after every RESET holds at power-on. -/
theorem resetBlock_resetOf (c : Cfg) : resetBlock (State.resetOf c) = State.resetOf c := rfl

theorem resetOf_inv (c : Cfg) : Inv (State.resetOf c) := resetBlock_resetOf c ▸ resetBlock_inv _

theorem resetOf_factoryFlag (c : Cfg) : FactoryFlag (State.resetOf c) :=
  resetBlock_resetOf c ▸ resetBlock_factoryFlag _

/-- CFG0's modes of moduleModeMap and its DEFAULT_MODE (92_eei_decisions.md D55), nibble by nibble. -/
theorem cfg0_noFactoryTarget : Cfg.noFactoryTarget cfg0 := ⟨by decide, by decide⟩

/-- Settles O7: the register file by its own lemmas, every other element as `State.resetOf` writes it. -/
theorem resetRestoresEveryElement : Obligations.ResetRestoresEveryElement := by
  unfold Obligations.ResetRestoresEveryElement
  intro s
  exact ⟨resetBlock s, exec_reset s, rfl, rfl, rfl, resetMemory_wf s.cfg,
    fun a _ => resetMemory_read s.cfg a, rfl, rfl, rfl, rfl, rfl, rfl, rfl, rfl, rfl, rfl⟩

/-- Settles O8. -/
theorem powerOnIsTheResetState : Obligations.PowerOnIsTheResetState := by
  unfold Obligations.PowerOnIsTheResetState
  intro s h
  rw [exec_reset, resetBlock_of_cfg h]
  rfl

/-- Settles O54: the power-on state is a state RESET leaves. -/
theorem resetStateIsInvariant : Obligations.ResetStateIsInvariant := by
  unfold Obligations.ResetStateIsInvariant
  exact ⟨resetOf_inv cfg0, resetOf_factoryFlag cfg0, cfg0_noFactoryTarget, rfl⟩

/-! ### One step, by the form of the oldest input -/

section
variable {s : State} {rest : List Wire}

/-- An input that decodes, and is no command frame, runs its instruction. -/
theorem step_of_decoded {x : Wire} {i : Instr} (noIssue : s.input.issue = none)
    (oldest : s.input.pending = x :: rest) (decoded : decode s.cfg x = .ok i)
    (noCmd : ∀ w, x ≠ .cmd w) : step s = exec i (takePending rest s) := by
  rw [step_of_pending noIssue oldest]
  exact stepInput_of_ok ((decodeInput_eq noCmd).trans decoded)

/-- Bytes that are no status frame arrive one by one (40_serial_link.md R110; entry 15). -/
theorem step_of_strayBytes {bs : List Byte} {e : DecodeError} (noIssue : s.input.issue = none)
    (oldest : s.input.pending = .status bs :: rest) (noFrame : decode s.cfg (.status bs) = .error e) :
    step s = exec (.rxseq bs) (takePending rest s) := by
  rw [step_of_pending noIssue oldest]
  exact stepInput_of_error noFrame

/-- A command frame, which is an output, and a transaction of no format are not taken as inputs (entries
14, 15). -/
theorem step_of_notTaken {x : Wire} (noIssue : s.input.issue = none)
    (oldest : s.input.pending = x :: rest) (h : (∃ w, x = .cmd w) ∨ ∃ n w, x = .unknown n w) :
    step s = .next (markRefused (takePending rest s)) := by
  rw [step_of_pending noIssue oldest]
  obtain ⟨w, rfl⟩ | ⟨n, w, rfl⟩ := h
  · exact stepInput_of_error (e := .notAnInput) rfl
  · exact stepInput_of_error (e := .noFormat) rfl

end

/-- Settles O59, one clause for each form of the input; that a decoded instruction is well-formed is
`decode_own`. -/
theorem stepRunsTheDecodedInstruction : Obligations.StepRunsTheDecodedInstruction := by
  unfold Obligations.StepRunsTheDecodedInstruction
  intro s
  refine ⟨fun noIssue => ⟨?decoded, ?strayBytes, ?notTaken, step_of_none noIssue⟩,
    fun w issued => ⟨?row, ?noRow⟩⟩
  case decoded =>
    intro x rest i oldest decoded noCmd
    exact ⟨(decode_own decoded).wf, step_of_decoded noIssue oldest decoded noCmd⟩
  case strayBytes => exact fun bs rest e oldest noFrame => step_of_strayBytes noIssue oldest noFrame
  case notTaken => exact fun x rest oldest h => step_of_notTaken noIssue oldest h
  case row =>
    intro i decoded
    exact ⟨(decode_own decoded).wf, (step_of_issue issued).trans (stepIssue_of_ok decoded)⟩
  case noRow => exact fun e noFrame => (step_of_issue issued).trans (stepIssue_of_error noFrame)

end Sys2Proof.Machine
end
